-- ==== Sys2Proof/Word.lean ====
section
/-! DEFINITION. The words of the datapath and of the opcode table: plain bit vectors, all unsigned
(spec/00_scope.md R6, spec/41_reduction_tree.md R110). -/

namespace Sys2Proof

/-- An 8-bit value: a byte of the host's buffer (R31, R47). -/
abbrev Byte := BitVec 8

/-- The result port `count`, 8 bits at both widths (R21, R65). -/
abbrev Count := BitVec 8

/-- A word of the width-32 datapath (R5, R110). -/
abbrev Word32 := BitVec 32

/-- A word of the width-64 datapath (R5, R110). -/
abbrev Word64 := BitVec 64

/-- An operation identifier, format OPID4 (spec/30_encoding.md R72). -/
abbrev Opid := BitVec 4

end Sys2Proof
end

