-- ==== Sys2Proof/Config.lean ====
section
/-! DEFINITION. What is fixed for the hardware. The block has two widths and no other parameter a rule
reads (spec/00_scope.md R5). There is no free value here: the spec leaves no result of the block
undefined (spec/60_exceptions.md R142, spec/93_implementation_defined.md section 1), and `T_PD` is
read by no rule (spec/70_reset_and_hazards.md R168). The four hardwired constants of each width stand
in Machine/Constants.lean. -/

namespace Sys2Proof

/-- The two operand widths, "N ∈ {32, 64}" (R5). -/
inductive Width where
  | w32
  | w64
  deriving DecidableEq, Repr

/-- The parameter `W` in bits (R5). -/
def Width.bits : Width → Nat
  | .w32 => 32
  | .w64 => 64

end Sys2Proof
end

