-- ==== Sys2Proof/Machine/Constants.lean ====
section
/-! DEFINITION. The four hardwired constants of each width (spec/30_encoding.md R66 to R69,
spec/10_state.md R23): definitions, never state. The patterns of the masks are written most
significant bit first, which fixes the literals (spec/92_eei_decisions.md D20). -/

namespace Sys2Proof.Machine

/-- Mask `M1(32)`: bit i is set exactly when i is even (R66). -/
def m1_32 : Word32 := 0x55555555#32
/-- Mask `M2(32)`: bit i is set exactly when i mod 4 is 0 or 1 (R67). -/
def m2_32 : Word32 := 0x33333333#32
/-- Mask `M3(32)`: bit i is set exactly when i mod 8 is below 4 (R68). -/
def m3_32 : Word32 := 0x0F0F0F0F#32
/-- Multiplier `H(32)`: bit i is set exactly when i mod 8 is 0 (R69). -/
def h_32 : Word32 := 0x01010101#32

/-- Mask `M1(64)` (R66). -/
def m1_64 : Word64 := 0x5555555555555555#64
/-- Mask `M2(64)` (R67). -/
def m2_64 : Word64 := 0x3333333333333333#64
/-- Mask `M3(64)` (R68). -/
def m3_64 : Word64 := 0x0F0F0F0F0F0F0F0F#64
/-- Multiplier `H(64)` (R69). -/
def h_64 : Word64 := 0x0101010101010101#64

end Sys2Proof.Machine
end

