-- ==== Sys2Proof/Syntax.lean ====
section
/-! DEFINITION. The operations of the block: "A model's operation type has ten constructors and no
more" (spec/40_popcount_word.md R105). No operation has an operand field: the operand travels on the
instance's input wires and the result on its output wires (spec/30_encoding.md R70, R73). -/

namespace Sys2Proof

/-- The ten operations of spec/opcode_table.json (R73). -/
inductive Instr where
  /-- `count-bits-32`, the whole datapath at W = 32 (R90). -/
  | popcnt32
  /-- Pair-sum step at W = 32 (R115). -/
  | pairsum32
  /-- Nibble-sum step at W = 32 (R117). -/
  | nibsum32
  /-- Byte-sum step at W = 32 (R119). -/
  | bytesum32
  /-- Horizontal sum via multiply at W = 32 (R121). -/
  | hsum32
  /-- `count-bits-64`, the whole datapath at W = 64 (R91). -/
  | popcnt64
  /-- Pair-sum step at W = 64 (R116). -/
  | pairsum64
  /-- Nibble-sum step at W = 64 (R118). -/
  | nibsum64
  /-- Byte-sum step at W = 64 (R120). -/
  | bytesum64
  /-- Horizontal sum via multiply at W = 64 (R122). -/
  | hsum64
  deriving DecidableEq, Repr

end Sys2Proof
end

