-- ==== Sys2Proof/Decode.lean ====
section
/-! DEFINITION. The operation identifier OPID4: decoder, encoder, and the same for the list of
identifiers that encodes a script (spec/30_encoding.md R72 to R74, R78, R80). -/

namespace Sys2Proof

/-- Why an identifier is not decoded. -/
inductive DecodeRefusal where
  /-- The identifier is one of 0x5, 0x6, 0x7, 0xD, 0xE, 0xF, which name no operation (R74). -/
  | unassigned (code : Opid)
  deriving DecidableEq, Repr

/-- Field `w` of an identifier, bit 3: clear for W = 32, set for W = 64 (R72). -/
def opidW (c : Opid) : Bool := c.getLsbD 3

/-- Field `fn` of an identifier, bits 2:0, as a number (R72). -/
def opidFn (c : Opid) : Nat := (c.extractLsb' 0 3).toNat

/-- The operation an identifier names (R73), or a refusal by name (R74). -/
def decode (c : Opid) : Except DecodeRefusal Instr :=
  match opidW c, opidFn c with
  | false, 0 => .ok .popcnt32
  | false, 1 => .ok .pairsum32
  | false, 2 => .ok .nibsum32
  | false, 3 => .ok .bytesum32
  | false, 4 => .ok .hsum32
  | true, 0 => .ok .popcnt64
  | true, 1 => .ok .pairsum64
  | true, 2 => .ok .nibsum64
  | true, 3 => .ok .bytesum64
  | true, 4 => .ok .hsum64
  | _, _ => .error (.unassigned c)

/-- An identifier from its two fields, `w` at bit 3 and `fn` at bits 2:0 (R72). -/
def opidOf (w : Bool) (fn : BitVec 3) : Opid := BitVec.ofBool w ++ fn

/-- The identifier of an operation (R72, R73). -/
def encode : Instr → Opid
  | .popcnt32 => opidOf false 0
  | .pairsum32 => opidOf false 1
  | .nibsum32 => opidOf false 2
  | .bytesum32 => opidOf false 3
  | .hsum32 => opidOf false 4
  | .popcnt64 => opidOf true 0
  | .pairsum64 => opidOf true 1
  | .nibsum64 => opidOf true 2
  | .bytesum64 => opidOf true 3
  | .hsum64 => opidOf true 4

/-- The encoding of a list of evaluations: the identifiers in order (R78). -/
def encodeAll : List Instr → List Opid
  | [] => []
  | i :: is => encode i :: encodeAll is

/-- The operations a list of identifiers names, or the refusal of the first one that names none
(R74, R78). -/
def decodeAll : List Opid → Except DecodeRefusal (List Instr)
  | [] => .ok []
  | c :: cs =>
    match decode c with
    | .error r => .error r
    | .ok i =>
      match decodeAll cs with
      | .error r => .error r
      | .ok is => .ok (i :: is)

/-- The identifier in a numbered table word: bits 3:0, or none where a higher bit is set.
DESIGN CHOICE (log 6): an identifier has 4 bits, so a word with more names nothing; safe. -/
def opidOfTableWord (w : Nat) : Option Opid :=
  if w < 16 then some (BitVec.ofNat 4 w) else none

/-- The operation this decoder reads from an instruction numbered as spec/opcode_table.json numbers
it. `nbits` is not needed: an identifier is at most one byte long. -/
def decodeTableWord (_nbits w : Nat) : Option Instr :=
  match opidOfTableWord w with
  | none => none
  | some c =>
    match decode c with
    | .ok i => some i
    | .error _ => none

end Sys2Proof
end

