-- ==== Sys2Proof/Machine/Script.lean ====
section
/-! DEFINITION. Evaluation scripts, the spec's notation for what the host asks of the block
(spec/30_encoding.md R77, R78). A script is straight-line: it has no branch, label or memory.
DESIGN CHOICE (log 7): names are numbers, and a literal carries its width; safe. -/

namespace Sys2Proof.Machine

/-- The kinds of value a script handles: the widths of R73's table, and the host's unbounded sums
(R78). -/
inductive Ty where
  | byte
  | word32
  | word64
  | total
  deriving DecidableEq, Repr

/-- A value of a script. -/
inductive Value where
  /-- An 8-bit value: a `count` or a byte of the host's buffer. -/
  | byte (b : Byte)
  /-- A 32-bit word. -/
  | word32 (x : Word32)
  /-- A 64-bit word. -/
  | word64 (x : Word64)
  /-- A sum made by the host's ADD, a natural number with no wrap-around (R78, N9). -/
  | total (n : Nat)
  deriving DecidableEq, Repr

/-- The kind of a value. -/
def Value.ty : Value → Ty
  | .byte _ => .byte
  | .word32 _ => .word32
  | .word64 _ => .word64
  | .total _ => .total

/-- The natural number a value stands for (R6). -/
def Value.toNat : Value → Nat
  | .byte b => b.toNat
  | .word32 x => x.toNat
  | .word64 x => x.toNat
  | .total n => n

/-- A source of a script line: "a literal or a name bound earlier" (R77). -/
inductive Src where
  | lit (x : Value)
  | name (n : Nat)
  deriving DecidableEq, Repr

/-- One line of a script: an operation line (R77) or one of the four host lines (R78). -/
inductive Line where
  /-- `dst = MNEMONIC src`, the operation given by its identifier (R77, R78). -/
  | op (dst : Nat) (code : Opid) (src : Src)
  /-- `dst = ZEXT32 b` (R47, R78). -/
  | zext32 (dst : Nat) (b : Src)
  /-- `dst = LE32 b0 b1 b2 b3` (R46, R78). -/
  | le32 (dst : Nat) (b0 b1 b2 b3 : Src)
  /-- `dst = LE64 b0 ... b7` (R45, R78). -/
  | le64 (dst : Nat) (b0 b1 b2 b3 b4 b5 b6 b7 : Src)
  /-- `dst = ADD y z` (R48, R78). -/
  | add (dst : Nat) (y z : Src)
  deriving DecidableEq, Repr

/-- The name a line binds. -/
def Line.dst : Line → Nat
  | .op d _ _ => d
  | .zext32 d _ => d
  | .le32 d _ _ _ _ => d
  | .le64 d _ _ _ _ _ _ _ _ => d
  | .add d _ _ => d

/-- The encoding of a script: the identifiers of its operation lines in order; host lines have none
(R78). -/
def encodeScript : List Line → List Opid
  | [] => []
  | .op _ c _ :: ls => c :: encodeScript ls
  | .zext32 _ _ :: ls => encodeScript ls
  | .le32 _ _ _ _ _ :: ls => encodeScript ls
  | .le64 _ _ _ _ _ _ _ _ _ :: ls => encodeScript ls
  | .add _ _ _ :: ls => encodeScript ls

/-- The operations of a script: what the identifiers of its operation lines name, in order; a line with
an unassigned identifier has none (R73, R74, R78). -/
def scriptOps : List Line → List Instr
  | [] => []
  | .op _ c _ :: ls =>
    match decode c with
    | .ok i => i :: scriptOps ls
    | .error _ => scriptOps ls
  | .zext32 _ _ :: ls => scriptOps ls
  | .le32 _ _ _ _ _ :: ls => scriptOps ls
  | .le64 _ _ _ _ _ _ _ _ _ :: ls => scriptOps ls
  | .add _ _ _ :: ls => scriptOps ls

/-- The sources of a line, left to right (R77, R78). -/
def Line.sources : Line → List Src
  | .op _ _ a => [a]
  | .zext32 _ b => [b]
  | .le32 _ b0 b1 b2 b3 => [b0, b1, b2, b3]
  | .le64 _ b0 b1 b2 b3 b4 b5 b6 b7 => [b0, b1, b2, b3, b4, b5, b6, b7]
  | .add _ y z => [y, z]

/-- The kind of an operation's operand (R73, R77). -/
def operandTy : Instr → Ty
  | .popcnt32 | .pairsum32 | .nibsum32 | .bytesum32 | .hsum32 => .word32
  | .popcnt64 | .pairsum64 | .nibsum64 | .bytesum64 | .hsum64 => .word64

/-- The kind of an operation's result (R73, R77). -/
def resultTy : Instr → Ty
  | .pairsum32 | .nibsum32 | .bytesum32 => .word32
  | .pairsum64 | .nibsum64 | .bytesum64 => .word64
  | .popcnt32 | .hsum32 | .popcnt64 | .hsum64 => .byte

end Sys2Proof.Machine
end

