-- ==== Sys2Proof/Machine/State.lean ====
section
/-! DEFINITION. What the machine holds. The block has no storage (spec/10_state.md R20): what it has
are wires, listed by R21 and R22, whose values are functions of the operand present (R30). State holds
those wires for one instance of each of the ten operations, and beside them the host's script and the
names it has bound (spec/30_encoding.md R77, R78).
DESIGN CHOICE (log 1): one instance of each kind, its wires kept as data; no meaning reads a wire
other than its own instance's input, so nothing is carried from one evaluation to another; safe. -/

namespace Sys2Proof.Machine

/-- The ports and nets of a whole-word instance (R21, R22). -/
structure WordNets (w : Nat) where
  /-- The operand port. -/
  v : BitVec w
  b1 : BitVec w
  s1 : BitVec w
  lo2 : BitVec w
  hi2 : BitVec w
  s2 : BitVec w
  t3 : BitVec w
  s3 : BitVec w
  p : BitVec w
  /-- The result port. -/
  count : Count
  deriving DecidableEq, Repr

/-- The nets of a pair-sum instance: input `v`, output `s1` (R115, R116). -/
structure PairNets (w : Nat) where
  v : BitVec w
  b1 : BitVec w
  s1 : BitVec w
  deriving DecidableEq, Repr

/-- The nets of a nibble-sum instance: input `s1`, output `s2` (R117, R118). -/
structure NibNets (w : Nat) where
  s1 : BitVec w
  lo2 : BitVec w
  hi2 : BitVec w
  s2 : BitVec w
  deriving DecidableEq, Repr

/-- The nets of a byte-sum instance: input `s2`, output `s3` (R119, R120). -/
structure ByteNets (w : Nat) where
  s2 : BitVec w
  t3 : BitVec w
  s3 : BitVec w
  deriving DecidableEq, Repr

/-- The nets of a horizontal-sum instance: input `s3`, outputs `p` and `count` (R121, R122). -/
structure SumNets (w : Nat) where
  s3 : BitVec w
  p : BitVec w
  count : Count
  deriving DecidableEq, Repr

/-- The wires of one instance of each operation, and the host's script and bindings. -/
structure State where
  popcnt32 : WordNets 32
  pairsum32 : PairNets 32
  nibsum32 : NibNets 32
  bytesum32 : ByteNets 32
  hsum32 : SumNets 32
  popcnt64 : WordNets 64
  pairsum64 : PairNets 64
  nibsum64 : NibNets 64
  bytesum64 : ByteNets 64
  hsum64 : SumNets 64
  /-- The names the host has bound, newest first (R77, R78). -/
  names : List (Nat × Value)
  /-- The lines the host still asks for, oldest first (R78, R170). -/
  script : List Line
  deriving DecidableEq, Repr

/-- The block raises nothing: "its fault type, if the framework demands one, has no constructor
reachable from the block" (spec/60_exceptions.md R140). It has none at all, so nothing raises one, and
every claim that no evaluation faults is safe (log 5). -/
inductive Fault where
  deriving DecidableEq, Repr

/-- The refusals of the model's script layer. "None of these is a fault of the hardware"
(spec/95_test_vectors.md P6): no evaluation of the block refuses anything. -/
inductive Refusal where
  /-- An operation without a meaning; no arm of exec answers with it. Safe. -/
  | notModelled (mnemonic : String)
  /-- An operation line whose identifier names no operation (R74); raised by the fetch. Safe. -/
  | unassignedOpid (code : Opid)
  /-- A source whose width is not the one its place asks for (R77); raised by reading it. Safe. -/
  | widthMismatch (expected found : Ty)
  /-- A source name that no earlier line has bound (R78); raised by reading it. Safe. -/
  | unboundName (n : Nat)
  /-- A line that binds a name already bound (R78); raised before the line is run. Safe. -/
  | nameTaken (n : Nat)
  deriving DecidableEq, Repr

/-- The machine before the host has asked for anything. There is no reset input and nothing to reset
(spec/70_reset_and_hazards.md R160); every net has the value its rule gives for the operand present
(R30), the host has bound no name and asks for no line (R161, R170).
DESIGN CHOICE (log 2): the spec gives the inputs no value, "it is whatever the host drives" (R30);
here each is 0, for which every net is 0; unsafe. -/
def State.reset : State where
  popcnt32 := ⟨0, 0, 0, 0, 0, 0, 0, 0, 0, 0⟩
  pairsum32 := ⟨0, 0, 0⟩
  nibsum32 := ⟨0, 0, 0, 0⟩
  bytesum32 := ⟨0, 0, 0⟩
  hsum32 := ⟨0, 0, 0⟩
  popcnt64 := ⟨0, 0, 0, 0, 0, 0, 0, 0, 0, 0⟩
  pairsum64 := ⟨0, 0, 0⟩
  nibsum64 := ⟨0, 0, 0, 0⟩
  bytesum64 := ⟨0, 0, 0⟩
  hsum64 := ⟨0, 0, 0⟩
  names := []
  script := []

end Sys2Proof.Machine
end

