-- ==== Sys2Proof/Machine/Ops.lean ====
section
/-! DEFINITION. The shared operations. First the four steps of the datapath at any width, "identical
shape for both widths, only constants differ" (spec/10_state.md R23), with the arithmetic of
spec/41_reduction_tree.md R110 to R113: `>>>` is the logical shift, `+`, `-` and `*` are modulo 2^W.
Then the operations on State: the evaluation of one instance, the host's driving of an input, the
host's reading of a result, the binding of a name. There is no memory, no register file and no
exception entry to write (spec/10_state.md R24 to R28, spec/60_exceptions.md R140, R146). -/

namespace Sys2Proof.Machine

/-- Step 1, the pair sums (R115, R116). -/
def pairNets {w : Nat} (m1 v : BitVec w) : PairNets w :=
  let b1 := (v >>> 1) &&& m1
  ⟨v, b1, v - b1⟩

/-- Step 2, the nibble sums (R117, R118). -/
def nibNets {w : Nat} (m2 s1 : BitVec w) : NibNets w :=
  let lo2 := s1 &&& m2
  let hi2 := (s1 >>> 2) &&& m2
  ⟨s1, lo2, hi2, lo2 + hi2⟩

/-- Step 3, the byte sums (R119, R120). -/
def byteNets {w : Nat} (m3 s2 : BitVec w) : ByteNets w :=
  let t3 := s2 + (s2 >>> 4)
  ⟨s2, t3, t3 &&& m3⟩

/-- Step 4, the horizontal sum: the count is the top 8 bits of the W-bit product (R121, R122). The
product is written with the constant first, since Lean unfolds a multiplication by a literal on the
right one unit at a time. -/
def sumNets {w : Nat} (h s3 : BitVec w) : SumNets w :=
  let p := h * s3
  ⟨s3, p, (p >>> (w - 8)).setWidth 8⟩

/-- The whole datapath: the four steps, each on the result of the one before (R90, R91, R99). -/
def wordNets {w : Nat} (m1 m2 m3 h v : BitVec w) : WordNets w :=
  let a := pairNets m1 v
  let b := nibNets m2 a.s1
  let c := byteNets m3 b.s2
  let d := sumNets h c.s3
  ⟨v, a.b1, a.s1, b.lo2, b.hi2, b.s2, c.t3, c.s3, d.p, d.count⟩

/-- The nets of `popcount_word_32` for the operand `v` (R90). -/
def wordNets32 (v : Word32) : WordNets 32 := wordNets m1_32 m2_32 m3_32 h_32 v
/-- The nets of PAIRSUM32 for the operand `v` (R115). -/
def pairNets32 (v : Word32) : PairNets 32 := pairNets m1_32 v
/-- The nets of NIBSUM32 for the operand `s1` (R117). -/
def nibNets32 (s1 : Word32) : NibNets 32 := nibNets m2_32 s1
/-- The nets of BYTESUM32 for the operand `s2` (R119). -/
def byteNets32 (s2 : Word32) : ByteNets 32 := byteNets m3_32 s2
/-- The nets of HSUM32 for the operand `s3` (R121). -/
def sumNets32 (s3 : Word32) : SumNets 32 := sumNets h_32 s3

/-- The nets of `popcount_word_64` for the operand `v` (R91). -/
def wordNets64 (v : Word64) : WordNets 64 := wordNets m1_64 m2_64 m3_64 h_64 v
/-- The nets of PAIRSUM64 for the operand `v` (R116). -/
def pairNets64 (v : Word64) : PairNets 64 := pairNets m1_64 v
/-- The nets of NIBSUM64 for the operand `s1` (R118). -/
def nibNets64 (s1 : Word64) : NibNets 64 := nibNets m2_64 s1
/-- The nets of BYTESUM64 for the operand `s2` (R120). -/
def byteNets64 (s2 : Word64) : ByteNets 64 := byteNets m3_64 s2
/-- The nets of HSUM64 for the operand `s3` (R122). -/
def sumNets64 (s3 : Word64) : SumNets 64 := sumNets h_64 s3

/-! The named updates of State, one per field. -/

def State.setPopcnt32 (n : WordNets 32) (s : State) : State := { s with popcnt32 := n }
def State.setPairsum32 (n : PairNets 32) (s : State) : State := { s with pairsum32 := n }
def State.setNibsum32 (n : NibNets 32) (s : State) : State := { s with nibsum32 := n }
def State.setBytesum32 (n : ByteNets 32) (s : State) : State := { s with bytesum32 := n }
def State.setHsum32 (n : SumNets 32) (s : State) : State := { s with hsum32 := n }
def State.setPopcnt64 (n : WordNets 64) (s : State) : State := { s with popcnt64 := n }
def State.setPairsum64 (n : PairNets 64) (s : State) : State := { s with pairsum64 := n }
def State.setNibsum64 (n : NibNets 64) (s : State) : State := { s with nibsum64 := n }
def State.setBytesum64 (n : ByteNets 64) (s : State) : State := { s with bytesum64 := n }
def State.setHsum64 (n : SumNets 64) (s : State) : State := { s with hsum64 := n }
/-- The host binds a name (R77). -/
def State.bindName (n : Nat) (x : Value) (s : State) : State := { s with names := (n, x) :: s.names }
/-- The host's script becomes `ls`. -/
def State.setScript (ls : List Line) (s : State) : State := { s with script := ls }

/-- What stands on the input of the instance that performs `i` (R21, R73). -/
def State.operand (i : Instr) (s : State) : Value :=
  match i with
  | .popcnt32 => .word32 s.popcnt32.v
  | .pairsum32 => .word32 s.pairsum32.v
  | .nibsum32 => .word32 s.nibsum32.s1
  | .bytesum32 => .word32 s.bytesum32.s2
  | .hsum32 => .word32 s.hsum32.s3
  | .popcnt64 => .word64 s.popcnt64.v
  | .pairsum64 => .word64 s.pairsum64.v
  | .nibsum64 => .word64 s.nibsum64.s1
  | .bytesum64 => .word64 s.bytesum64.s2
  | .hsum64 => .word64 s.hsum64.s3

/-- What the host reads from the result net of the instance that performs `i` (R21, R73). -/
def State.result (i : Instr) (s : State) : Value :=
  match i with
  | .popcnt32 => .byte s.popcnt32.count
  | .pairsum32 => .word32 s.pairsum32.s1
  | .nibsum32 => .word32 s.nibsum32.s2
  | .bytesum32 => .word32 s.bytesum32.s3
  | .hsum32 => .byte s.hsum32.count
  | .popcnt64 => .byte s.popcnt64.count
  | .pairsum64 => .word64 s.pairsum64.s1
  | .nibsum64 => .word64 s.nibsum64.s2
  | .bytesum64 => .word64 s.bytesum64.s3
  | .hsum64 => .byte s.hsum64.count

/-- A value as an 8-bit one; nothing is silently narrowed or widened (R77). -/
def Value.asByte : Value → Except Refusal Byte
  | .byte b => .ok b
  | x => .error (.widthMismatch .byte x.ty)

/-- A value as a 32-bit word (R77). -/
def Value.asWord32 : Value → Except Refusal Word32
  | .word32 x => .ok x
  | x => .error (.widthMismatch .word32 x.ty)

/-- A value as a 64-bit word (R77). -/
def Value.asWord64 : Value → Except Refusal Word64
  | .word64 x => .ok x
  | x => .error (.widthMismatch .word64 x.ty)

/-- The host drives `x` onto the input of the instance that performs `i` (R21). The other nets of that
instance take their values in the evaluation that follows (R12). -/
def State.drive (i : Instr) (x : Value) (s : State) : Except Refusal State :=
  match i with
  | .popcnt32 => x.asWord32.map fun v => s.setPopcnt32 { s.popcnt32 with v := v }
  | .pairsum32 => x.asWord32.map fun v => s.setPairsum32 { s.pairsum32 with v := v }
  | .nibsum32 => x.asWord32.map fun v => s.setNibsum32 { s.nibsum32 with s1 := v }
  | .bytesum32 => x.asWord32.map fun v => s.setBytesum32 { s.bytesum32 with s2 := v }
  | .hsum32 => x.asWord32.map fun v => s.setHsum32 { s.hsum32 with s3 := v }
  | .popcnt64 => x.asWord64.map fun v => s.setPopcnt64 { s.popcnt64 with v := v }
  | .pairsum64 => x.asWord64.map fun v => s.setPairsum64 { s.pairsum64 with v := v }
  | .nibsum64 => x.asWord64.map fun v => s.setNibsum64 { s.nibsum64 with s1 := v }
  | .bytesum64 => x.asWord64.map fun v => s.setBytesum64 { s.bytesum64 with s2 := v }
  | .hsum64 => x.asWord64.map fun v => s.setHsum64 { s.hsum64 with s3 := v }

end Sys2Proof.Machine
end

