-- ==== Sys2Proof/Machine/Stages.lean ====
section
/-! DEFINITION. The eight stage operations taken alone (spec/41_reduction_tree.md R115 to R122). Each is
total on all words of its width, in the format of the stage before or not (R133). No flag is written
and nothing is raised. -/

namespace Sys2Proof.Machine

/-- PAIRSUM32 (R115). -/
def execPairsum32 (s : State) : Host.Outcome State Fault Refusal :=
  .next (s.setPairsum32 (pairNets32 s.pairsum32.v))

/-- PAIRSUM64 (R116). -/
def execPairsum64 (s : State) : Host.Outcome State Fault Refusal :=
  .next (s.setPairsum64 (pairNets64 s.pairsum64.v))

/-- NIBSUM32 (R117). -/
def execNibsum32 (s : State) : Host.Outcome State Fault Refusal :=
  .next (s.setNibsum32 (nibNets32 s.nibsum32.s1))

/-- NIBSUM64 (R118). -/
def execNibsum64 (s : State) : Host.Outcome State Fault Refusal :=
  .next (s.setNibsum64 (nibNets64 s.nibsum64.s1))

/-- BYTESUM32 (R119). -/
def execBytesum32 (s : State) : Host.Outcome State Fault Refusal :=
  .next (s.setBytesum32 (byteNets32 s.bytesum32.s2))

/-- BYTESUM64 (R120). -/
def execBytesum64 (s : State) : Host.Outcome State Fault Refusal :=
  .next (s.setBytesum64 (byteNets64 s.bytesum64.s2))

/-- HSUM32 (R121). -/
def execHsum32 (s : State) : Host.Outcome State Fault Refusal :=
  .next (s.setHsum32 (sumNets32 s.hsum32.s3))

/-- HSUM64 (R122). -/
def execHsum64 (s : State) : Host.Outcome State Fault Refusal :=
  .next (s.setHsum64 (sumNets64 s.hsum64.s3))

end Sys2Proof.Machine
end

