-- ==== Sys2Proof/Machine/WholeWord.lean ====
section
/-! DEFINITION. The whole-word operations (spec/40_popcount_word.md R90, R91): every net of the
instance takes the value its rule gives for the operand on its input (spec/00_scope.md R12). No flag
is written and nothing is raised, for any operand. -/

namespace Sys2Proof.Machine

/-- POPCNT32, `count-bits-32` (R90). -/
def execPopcnt32 (s : State) : Host.Outcome State Fault Refusal :=
  .next (s.setPopcnt32 (wordNets32 s.popcnt32.v))

/-- POPCNT64, `count-bits-64` (R91). -/
def execPopcnt64 (s : State) : Host.Outcome State Fault Refusal :=
  .next (s.setPopcnt64 (wordNets64 s.popcnt64.v))

end Sys2Proof.Machine
end

