-- ==== Sys2Proof/Machine/Dispatch.lean ====
section
/-! DEFINITION. One arm per operation (spec/30_encoding.md R73). -/

namespace Sys2Proof.Machine

def exec (i : Instr) (s : State) : Host.Outcome State Fault Refusal :=
  match i with
  | .popcnt32 => Sys2Proof.Machine.execPopcnt32 s
  | .pairsum32 => Sys2Proof.Machine.execPairsum32 s
  | .nibsum32 => Sys2Proof.Machine.execNibsum32 s
  | .bytesum32 => Sys2Proof.Machine.execBytesum32 s
  | .hsum32 => Sys2Proof.Machine.execHsum32 s
  | .popcnt64 => Sys2Proof.Machine.execPopcnt64 s
  | .pairsum64 => Sys2Proof.Machine.execPairsum64 s
  | .nibsum64 => Sys2Proof.Machine.execNibsum64 s
  | .bytesum64 => Sys2Proof.Machine.execBytesum64 s
  | .hsum64 => Sys2Proof.Machine.execHsum64 s

end Sys2Proof.Machine
end

