-- ==== Sys2Proof/Machine/Operands.lean ====
section
/-! DEFINITION. Every operand form: the literals and names of a script line (spec/30_encoding.md R77),
and the host's ways of forming an operand or a sum, which are not operations of the block (R78,
spec/20_memory.md R45 to R48). The block itself takes its operand as it stands on the input (R70). -/

namespace Sys2Proof.Machine

/-- `zext_32(c)`: the byte in bits 7:0, zeros above (R47). -/
def zext32 (c : Byte) : Word32 := c.setWidth 32

/-- `LE32(c0,c1,c2,c3) = {c3, c2, c1, c0}` (R46). -/
def le32 (c0 c1 c2 c3 : Byte) : Word32 := c3 ++ c2 ++ c1 ++ c0

/-- `LE64(c0,...,c7) = {c7, c6, c5, c4, c3, c2, c1, c0}` (R45). -/
def le64 (c0 c1 c2 c3 c4 c5 c6 c7 : Byte) : Word64 := c7 ++ c6 ++ c5 ++ c4 ++ c3 ++ c2 ++ c1 ++ c0

/-- The value of a source: the literal, or what an earlier line bound to the name (R77, R78). -/
def Src.read (a : Src) (s : State) : Except Refusal Value :=
  match a with
  | .lit x => .ok x
  | .name n =>
    match s.names.lookup n with
    | some x => .ok x
    | none => .error (.unboundName n)

/-- An 8-bit source.
DESIGN CHOICE (log 10): a name bound to an 8-bit value serves as well as a byte literal; safe. -/
def Src.readByte (a : Src) (s : State) : Except Refusal Byte := do
  let x ← a.read s
  x.asByte

/-- The value of `ZEXT32 b` (R78). -/
def zext32Line (b : Src) (s : State) : Except Refusal Value := do
  let c ← b.readByte s
  return .word32 (zext32 c)

/-- The value of `LE32 b0 b1 b2 b3` (R78). -/
def le32Line (b0 b1 b2 b3 : Src) (s : State) : Except Refusal Value := do
  let c0 ← b0.readByte s
  let c1 ← b1.readByte s
  let c2 ← b2.readByte s
  let c3 ← b3.readByte s
  return .word32 (le32 c0 c1 c2 c3)

/-- The value of `LE64 b0 ... b7` (R78). -/
def le64Line (b0 b1 b2 b3 b4 b5 b6 b7 : Src) (s : State) : Except Refusal Value := do
  let c0 ← b0.readByte s
  let c1 ← b1.readByte s
  let c2 ← b2.readByte s
  let c3 ← b3.readByte s
  let c4 ← b4.readByte s
  let c5 ← b5.readByte s
  let c6 ← b6.readByte s
  let c7 ← b7.readByte s
  return .word64 (le64 c0 c1 c2 c3 c4 c5 c6 c7)

/-- The value of `ADD y z`: the sum as naturals, with no wrap-around (R78).
DESIGN CHOICE (log 8): either addend may be of any kind and is read as the number it stands for; safe. -/
def addLine (y z : Src) (s : State) : Except Refusal Value := do
  let a ← y.read s
  let b ← z.read s
  return .total (a.toNat + b.toNat)

end Sys2Proof.Machine
end

