-- ==== Sys2Proof/Machine/Evaluate.lean ====
section
/-! DEFINITION. The evaluation as the host sees it (spec/00_scope.md R12), and the running of one script
line (spec/30_encoding.md R77, R78). -/

namespace Sys2Proof.Machine

/-- An evaluation of operation `i` on the operand value `x`: the host drives `x` onto the instance's
input and every net of the instance takes its value (R12). The input goes on holding `x`, which is the
host's obligation while it reads the result (spec/70_reset_and_hazards.md R164; log 11). -/
def evaluate (i : Instr) (x : Value) (s : State) : Host.Outcome State Fault Refusal :=
  match s.drive i x with
  | .error r => .refused r
  | .ok s' => exec i s'

/-- A name is bound once only (R78). -/
def freshName (n : Nat) (s : State) : Except Refusal Unit :=
  match s.names.lookup n with
  | some _ => .error (.nameTaken n)
  | none => .ok ()

/-- What an operation line and its source give: the operation and its operand value, or the refusal.
DESIGN CHOICE (log 9): a line with several faults is refused for the first of: identifier, bound name,
source, width; safe. -/
def fetchOp (dst : Nat) (code : Opid) (src : Src) (s : State) : Except Refusal (Instr × Value) :=
  match decode code with
  | .error (.unassigned c) => .error (.unassignedOpid c)
  | .ok i => do
    freshName dst s
    let x ← src.read s
    return (i, x)

/-- An operation line: fetch the operation and its operand, evaluate, bind the result (R77). -/
def runOpLine (dst : Nat) (code : Opid) (src : Src) (s : State) : Host.Outcome State Fault Refusal :=
  match fetchOp dst code src s with
  | .error r => .refused r
  | .ok (i, x) =>
    match evaluate i x s with
    | .next t => .next (t.bindName dst (t.result i))
    | .fault f => .fault f
    | .refused r => .refused r

/-- A host line: bind the value the host makes; no instance is touched (R78). -/
def runHostLine (dst : Nat) (value : State → Except Refusal Value) (s : State) :
    Host.Outcome State Fault Refusal :=
  match freshName dst s with
  | .error r => .refused r
  | .ok () =>
    match value s with
    | .error r => .refused r
    | .ok x => .next (s.bindName dst x)

/-- One line of a script (R77, R78). -/
def runLine (l : Line) (s : State) : Host.Outcome State Fault Refusal :=
  match l with
  | .op dst code src => runOpLine dst code src s
  | .zext32 dst b => runHostLine dst (zext32Line b) s
  | .le32 dst b0 b1 b2 b3 => runHostLine dst (le32Line b0 b1 b2 b3) s
  | .le64 dst b0 b1 b2 b3 b4 b5 b6 b7 => runHostLine dst (le64Line b0 b1 b2 b3 b4 b5 b6 b7) s
  | .add dst y z => runHostLine dst (addLine y z) s

/-- The next line of the script and what is left of it. -/
def stepScript (s : State) : Host.Outcome State Fault Refusal :=
  match s.script with
  | [] => .next s
  | l :: ls => runLine l (s.setScript ls)

/-- The least number above every bound name, which is free to be bound. -/
def freeName : List (Nat × Value) → Nat
  | [] => 0
  | (n, _) :: ns => max (n + 1) (freeName ns)

/-- The operand already on the input of the instance an identifier selects; for an unassigned
identifier any literal serves, since the line is refused. -/
def heldOperand (c : Opid) (s : State) : Value :=
  match decode c with
  | .ok i => s.operand i
  | .error _ => .byte 0

/-- The script line that performs the operation with the identifier `c` on what the host already
holds on that instance's input. -/
def heldLine (c : Opid) (s : State) : Line := .op (freeName s.names) c (.lit (heldOperand c s))

end Sys2Proof.Machine
end

