-- ==== Sys2Proof/Machine/Step.lean ====
section
/-! DEFINITION. The step: the next line of the script the host asks for (spec/30_encoding.md R78,
spec/70_reset_and_hazards.md R170). With nothing asked for, a step changes nothing: the block "never
halts and never finishes: it is ready for another operand at all times" (R170; log 4). -/

namespace Sys2Proof.Machine

def step (s : State) : Host.Outcome State Fault Refusal := stepScript s

/-- `s` with the table word `w` placed as the next line of the script: the identifier in its bits 3:0,
the operand already held on that instance's input, the result bound to a free name (log 3). A word
with a higher bit set names nothing (log 6) and stands as an unassigned identifier. -/
def State.withFetchWord (s : State) (_nbits w : Nat) : State :=
  s.setScript [heldLine ((opidOfTableWord w).getD 0xF#4) s]

end Sys2Proof.Machine
end

