-- ==== Sys2Proof/Machine/Fields.lean ====
section
/-! DEFINITION. Slices and fields of a word, and the mathematical population count, the yardstick the
operations are held to (spec/00_scope.md R7). -/

namespace Sys2Proof.Machine

/-- `field(a, g, k)`: the k-th g-bit field of `a`, field 0 the least significant (R7). -/
def field {w : Nat} (a : BitVec w) (g k : Nat) : BitVec g := a.extractLsb' (g * k) g

/-- Bit i of `a` as a natural number, 0 or 1 (R6). -/
def bit {w : Nat} (a : BitVec w) (i : Nat) : Nat := (a.getLsbD i).toNat

/-- The number of 1 bits among the lowest `n` bits of `a`. -/
def popcntBelow {w : Nat} (a : BitVec w) : Nat → Nat
  | 0 => 0
  | n + 1 => popcntBelow a n + bit a n

/-- `popcnt(a)`: the sum of all bits of `a` (R7). It is no operation of the block. -/
def popcnt {w : Nat} (a : BitVec w) : Nat := popcntBelow a w

/-- The sum of the lowest `n` bytes of `a`, as naturals: `P_(n-1)` of R126. -/
def byteSumBelow {w : Nat} (a : BitVec w) : Nat → Nat
  | 0 => 0
  | n + 1 => byteSumBelow a n + (field a 8 n).toNat

/-- The sum over j < n of `P_j * 2^(8j)`, where `P_j` is the sum of bytes 0..j of `a` (R126). -/
def prefixWordBelow {w : Nat} (a : BitVec w) : Nat → Nat
  | 0 => 0
  | n + 1 => prefixWordBelow a n + byteSumBelow a (n + 1) * 2 ^ (8 * n)

/-- The word whose g-bit field k is `f k` for k below `n`, and zero above. -/
def ofFields (w g : Nat) (f : Nat → BitVec g) : Nat → BitVec w
  | 0 => 0#w
  | n + 1 => ofFields w g f n ||| ((f n).setWidth w <<< (g * n))

end Sys2Proof.Machine
end

