-- ==== Sys2Proof/Machine/Equivalent.lean ====
section
/-! DEFINITION. The equivalent structures of spec/41_reduction_tree.md: the datapath with arithmetic
shifts in place of logical ones (R128), step 4 as shifts and adds (R131), and the whole as a tree of
small adders (R132). No meaning calls them; claims compare them with the datapath of Machine/Ops.lean. -/

namespace Sys2Proof.Machine

/-- Step 1 with an arithmetic shift (R128). -/
def pairNetsSar {w : Nat} (m1 v : BitVec w) : PairNets w :=
  let b1 := v.sshiftRight 1 &&& m1
  ⟨v, b1, v - b1⟩

/-- Step 2 with an arithmetic shift (R128). -/
def nibNetsSar {w : Nat} (m2 s1 : BitVec w) : NibNets w :=
  let hi2 := s1.sshiftRight 2 &&& m2
  ⟨s1, s1 &&& m2, hi2, (s1 &&& m2) + hi2⟩

/-- Step 3 with an arithmetic shift (R128). -/
def byteNetsSar {w : Nat} (m3 s2 : BitVec w) : ByteNets w :=
  let t3 := s2 + s2.sshiftRight 4
  ⟨s2, t3, t3 &&& m3⟩

/-- Step 4 with an arithmetic shift (R128). -/
def sumNetsSar {w : Nat} (h s3 : BitVec w) : SumNets w :=
  let p := h * s3
  ⟨s3, p, (p.sshiftRight (w - 8)).setWidth 8⟩

/-- The whole datapath with arithmetic shifts (R128). -/
def wordNetsSar {w : Nat} (m1 m2 m3 h v : BitVec w) : WordNets w :=
  let a := pairNetsSar m1 v
  let b := nibNetsSar m2 a.s1
  let c := byteNetsSar m3 b.s2
  let d := sumNetsSar h c.s3
  ⟨v, a.b1, a.s1, b.lo2, b.hi2, b.s2, c.t3, c.s3, d.p, d.count⟩

/-- The sum of `x << 8m` for m below `n`, modulo 2^W (R131). -/
def shiftAddBelow {w : Nat} (x : BitVec w) : Nat → BitVec w
  | 0 => 0#w
  | n + 1 => shiftAddBelow x n + (x <<< (8 * n))

/-- One bit as a 2-bit number. -/
def bit2 {w : Nat} (a : BitVec w) (i : Nat) : BitVec 2 := (BitVec.ofBool (a.getLsbD i)).setWidth 2

/-- Level 1 of the tree: W/2 adders, each adding two 1-bit numbers into a 2-bit number (R132). -/
def treePairs {w : Nat} (v : BitVec w) : BitVec w :=
  ofFields w 2 (fun i => bit2 v (2 * i + 1) + bit2 v (2 * i)) (w / 2)

/-- Level 2: W/4 adders, each adding two 2-bit numbers into a 3-bit number held in a 4-bit field (R132). -/
def treeNibbles {w : Nat} (s1 : BitVec w) : BitVec w :=
  ofFields w 4
    (fun j => ((field s1 2 (2 * j + 1)).setWidth 3 + (field s1 2 (2 * j)).setWidth 3).setWidth 4) (w / 4)

/-- The 3-bit number held in the k-th 4-bit field, as a 4-bit number (R132). -/
def low3 {w : Nat} (a : BitVec w) (k : Nat) : BitVec 4 := ((field a 4 k).setWidth 3).setWidth 4

/-- Level 3: W/8 adders, each adding two 3-bit numbers into a 4-bit number held in an 8-bit field (R132). -/
def treeBytes {w : Nat} (s2 : BitVec w) : BitVec w :=
  ofFields w 8 (fun k => (low3 s2 (2 * k + 1) + low3 s2 (2 * k)).setWidth 8) (w / 8)

/-- The chain of 8-bit adders that follows the tree: byte sums up to byte j (R132). -/
def chain {w : Nat} (s3 : BitVec w) : Nat → Byte
  | 0 => field s3 8 0
  | j + 1 => chain s3 j + field s3 8 (j + 1)

/-- The word of all prefix sums, which the chain produces on the way (R132). -/
def treePrefixes {w : Nat} (s3 : BitVec w) : BitVec w := ofFields w 8 (chain s3) (w / 8)

end Sys2Proof.Machine
end

