-- ==== Sys2Proof/Machine/Feed.lean ====
section
/-! DEFINITION. The environment's contract: the evaluations the host makes for a byte buffer, and the sum
it keeps of their results (spec/20_memory.md R44 to R48). None of this is part of the block: it is what
the spec puts in scope as the way the block is fed (spec/00_scope.md R3 (g)).
DESIGN CHOICE (log 12): the host is a function from a buffer to evaluations, and its sum a natural
number, which R78 says of the sum of a script; safe. -/

namespace Sys2Proof.Machine

/-- Single bytes: each is zero-extended and counted by POPCNT32 (R47). -/
def feedBytes : List Byte → List (Instr × Value)
  | [] => []
  | c :: cs => (.popcnt32, .word32 (zext32 c)) :: feedBytes cs

/-- After the 8-byte chunks: one 4-byte chunk if 4 bytes remain, then single bytes (R46, R47). -/
def feedTail : List Byte → List (Instr × Value)
  | c0 :: c1 :: c2 :: c3 :: cs => (.popcnt32, .word32 (le32 c0 c1 c2 c3)) :: feedBytes cs
  | cs => feedBytes cs

/-- The evaluations for a buffer, in order: 8-byte chunks while 8 bytes remain, then the tail (R45,
R48). -/
def feed : List Byte → List (Instr × Value)
  | c0 :: c1 :: c2 :: c3 :: c4 :: c5 :: c6 :: c7 :: cs =>
    (.popcnt64, .word64 (le64 c0 c1 c2 c3 c4 c5 c6 c7)) :: feed cs
  | cs => feedTail cs

/-- The host makes evaluations in order and adds their results to `sum` (R48); none if an evaluation
gives no next state. -/
def accumulate : List (Instr × Value) → Nat → State → Option (State × Nat)
  | [], sum, s => some (s, sum)
  | (i, x) :: es, sum, s =>
    match evaluate i x s with
    | .next t => accumulate es (sum + (t.result i).toNat) t
    | .fault _ => none
    | .refused _ => none

/-- The host counts a buffer: "The sum starts at 0" (R48). -/
def countBuffer (bytes : List Byte) (s : State) : Option (State × Nat) :=
  accumulate (feed bytes) 0 s

end Sys2Proof.Machine
end

