-- ==== Sys2Proof/WellFormed.lean ====
section
/-! DEFINITION. Well-formed scripts: every identifier assigned (spec/30_encoding.md R74), every source
bound before use and of the width its place asks for (R77, R78), every name bound once (R78). The
operations themselves have no operand field, so every `Instr` is well-formed. -/

namespace Sys2Proof.Machine

/-- The kind of each bound name. -/
abbrev TypeEnv := List (Nat × Ty)

/-- The kind of a source; none for a name that is not bound (R78). -/
def Src.ty? (env : TypeEnv) : Src → Option Ty
  | .lit x => some x.ty
  | .name n => env.lookup n

/-- The source is bound and has the kind `t` (R77). -/
def Src.has (env : TypeEnv) (t : Ty) (a : Src) : Bool := a.ty? env == some t

/-- The source is bound, at whatever kind (ADD, R78). -/
def Src.bound (env : TypeEnv) (a : Src) : Bool := (a.ty? env).isSome

/-- The name is free to be bound: names are single-assignment (R78). -/
def nameFree (env : TypeEnv) (n : Nat) : Bool := (env.lookup n).isNone

/-- The kind of the name a line binds; none where the line's identifier is unassigned (R73, R74). -/
def Line.ty? : Line → Option Ty
  | .op _ c _ =>
    match decode c with
    | .ok i => some (resultTy i)
    | .error _ => none
  | .zext32 _ _ => some .word32
  | .le32 _ _ _ _ _ => some .word32
  | .le64 _ _ _ _ _ _ _ _ _ => some .word64
  | .add _ _ _ => some .total

/-- A line's sources are bound and have the widths the line asks for (R74, R77, R78). -/
def Line.sourcesFit (env : TypeEnv) : Line → Bool
  | .op _ c a =>
    match decode c with
    | .ok i => a.has env (operandTy i)
    | .error _ => false
  | .zext32 _ b => b.has env .byte
  | .le32 _ b0 b1 b2 b3 =>
    b0.has env .byte && b1.has env .byte && b2.has env .byte && b3.has env .byte
  | .le64 _ b0 b1 b2 b3 b4 b5 b6 b7 =>
    b0.has env .byte && b1.has env .byte && b2.has env .byte && b3.has env .byte &&
      b4.has env .byte && b5.has env .byte && b6.has env .byte && b7.has env .byte
  | .add _ y z => y.bound env && z.bound env

/-- A line is well-formed where the names in `env` are bound. -/
def Line.wellFormed (env : TypeEnv) (l : Line) : Bool :=
  nameFree env l.dst && l.sourcesFit env

/-- A script is well-formed where the names in `env` are bound: each line is, with the names of the
lines before it bound too. -/
def scriptWellFormed (env : TypeEnv) : List Line → Bool
  | [] => true
  | l :: ls =>
    l.wellFormed env &&
      match l.ty? with
      | none => false
      | some t => scriptWellFormed ((l.dst, t) :: env) ls

end Sys2Proof.Machine
end

