-- ==== Sys2Proof/Safety.lean ====
section
/-! DEFINITION. What claims are stated in: the packed formats and the lane-by-lane meaning of the steps,
and what every state of a run satisfies. -/

namespace Sys2Proof.Machine

/-- Every g-bit field of `x` holds at most `m`. PC2, PC4 and PC8 are `FieldsAtMost 2 2`,
`FieldsAtMost 4 4` and `FieldsAtMost 8 8` (spec/30_encoding.md R61 to R63). -/
def FieldsAtMost {w : Nat} (g m : Nat) (x : BitVec w) : Prop :=
  ∀ k < w / g, (field x g k).toNat ≤ m

/-- Each pair of `s1` holds the sum of the two bits of that pair of `v` (R115, R116, R123). -/
def CountsPairs {w : Nat} (v s1 : BitVec w) : Prop :=
  ∀ i < w / 2, (field s1 2 i).toNat = bit v (2 * i + 1) + bit v (2 * i)

/-- Each nibble of `s2` holds the sum of the two pairs of that nibble of `s1` (R117, R118, R124). -/
def SumsPairs {w : Nat} (s1 s2 : BitVec w) : Prop :=
  ∀ j < w / 4, (field s2 4 j).toNat = (field s1 2 (2 * j)).toNat + (field s1 2 (2 * j + 1)).toNat

/-- Each byte of `s3` holds the sum of the two nibbles of that byte of `s2` (R119, R120, R125). -/
def SumsNibbles {w : Nat} (s2 s3 : BitVec w) : Prop :=
  ∀ k < w / 8, (field s3 8 k).toNat = (field s2 4 (2 * k)).toNat + (field s2 4 (2 * k + 1)).toNat

/-- Each nibble of `t3` holds the sum of that nibble of `s2` and the next one up, which is 0 above the
top: no carry passes between nibbles (R119, R125). -/
def AddsNextNibble {w : Nat} (s2 t3 : BitVec w) : Prop :=
  ∀ j < w / 4, (field t3 4 j).toNat = (field s2 4 j).toNat + (field s2 4 (j + 1)).toNat

/-- Byte j of `p` holds the sum of bytes 0..j of `s3` (R64, R121, R122, R126). -/
def PrefixSums {w : Nat} (s3 p : BitVec w) : Prop :=
  ∀ j < w / 8, (field p 8 j).toNat = byteSumBelow s3 (j + 1)

/-- The supposition of R125: any two adjacent nibbles add up to at most 15. -/
def NibblesFit {w : Nat} (x : BitVec w) : Prop :=
  ∀ j, j + 1 < w / 4 → (field x 4 j).toNat + (field x 4 (j + 1)).toNat ≤ 15

/-- All the ports and nets of one instance, of whatever shape (R21, R22). -/
inductive InstanceNets where
  | word32 (n : WordNets 32)
  | pair32 (n : PairNets 32)
  | nib32 (n : NibNets 32)
  | byte32 (n : ByteNets 32)
  | sum32 (n : SumNets 32)
  | word64 (n : WordNets 64)
  | pair64 (n : PairNets 64)
  | nib64 (n : NibNets 64)
  | byte64 (n : ByteNets 64)
  | sum64 (n : SumNets 64)
  deriving DecidableEq, Repr

/-- All the ports and nets of the instance that performs `i`. -/
def State.netsOf (i : Instr) (s : State) : InstanceNets :=
  match i with
  | .popcnt32 => .word32 s.popcnt32
  | .pairsum32 => .pair32 s.pairsum32
  | .nibsum32 => .nib32 s.nibsum32
  | .bytesum32 => .byte32 s.bytesum32
  | .hsum32 => .sum32 s.hsum32
  | .popcnt64 => .word64 s.popcnt64
  | .pairsum64 => .pair64 s.pairsum64
  | .nibsum64 => .nib64 s.nibsum64
  | .bytesum64 => .byte64 s.bytesum64
  | .hsum64 => .sum64 s.hsum64

/-- Every net of every instance has the value its rule gives for the operand on that instance's input:
R30 says so of "every moment". -/
abbrev State.Settled (s : State) : Prop :=
  s.popcnt32 = wordNets32 s.popcnt32.v ∧ s.pairsum32 = pairNets32 s.pairsum32.v ∧
  s.nibsum32 = nibNets32 s.nibsum32.s1 ∧ s.bytesum32 = byteNets32 s.bytesum32.s2 ∧
  s.hsum32 = sumNets32 s.hsum32.s3 ∧
  s.popcnt64 = wordNets64 s.popcnt64.v ∧ s.pairsum64 = pairNets64 s.pairsum64.v ∧
  s.nibsum64 = nibNets64 s.nibsum64.s1 ∧ s.bytesum64 = byteNets64 s.bytesum64.s2 ∧
  s.hsum64 = sumNets64 s.hsum64.s3

/-- No name is bound twice: names are single-assignment (R78). -/
abbrev State.NamesDistinct (s : State) : Prop := (s.names.map Prod.fst).Nodup

/-- What every state of a run satisfies. -/
abbrev State.Inv (s : State) : Prop := s.Settled ∧ s.NamesDistinct

/-- The kinds of the bound names. -/
def State.types (s : State) : TypeEnv := s.names.map fun b => (b.1, b.2.ty)

/-- What is left of the script is well-formed where the bound names are bound (R77, R78). -/
abbrev State.ScriptFits (s : State) : Prop := scriptWellFormed s.types s.script = true

end Sys2Proof.Machine
end

