-- ==== Sys2Proof/Certificates/Slice0/Obligations.lean ====
section
/-! DEFINITION. The statements about the model, for the provers. Each docstring names the rules of spec/
it formalises. `t = { s with f := t.f }` is a frame: every part of the state but `f` is unchanged. -/

open Sys2Proof
open Sys2Proof.Machine

/-! ### Identifiers, scripts and the step -/

/-- R73, R74: the ten assigned identifiers name their operations, in both directions, and the six others
are refused by name; the words of the opcode table read the same. -/
def Obligations.IdentifiersFollowTheTable : Prop :=
  decode 0b0000#4 = .ok .popcnt32 ∧ decode 0b0001#4 = .ok .pairsum32 ∧
  decode 0b0010#4 = .ok .nibsum32 ∧ decode 0b0011#4 = .ok .bytesum32 ∧
  decode 0b0100#4 = .ok .hsum32 ∧ decode 0b1000#4 = .ok .popcnt64 ∧
  decode 0b1001#4 = .ok .pairsum64 ∧ decode 0b1010#4 = .ok .nibsum64 ∧
  decode 0b1011#4 = .ok .bytesum64 ∧ decode 0b1100#4 = .ok .hsum64 ∧
  (∀ c ∈ [0b0101#4, 0b0110#4, 0b0111#4, 0b1101#4, 0b1110#4, 0b1111#4],
    decode c = .error (.unassigned c)) ∧
  ∀ i nbits, decode (encode i) = .ok i ∧ decodeTableWord nbits (encode i).toNat = some i

/-- R72 to R74, R78, R80: decoding the encoding of any list of operations gives the list back; a list of
identifiers decodes to a list of operations only if it is that list's encoding; it is refused exactly for
its first unassigned identifier; and the encoding of a well-formed script (whatever names are bound before
it) is that of the operations of its operation lines in order, host lines adding nothing, and decodes to
them. -/
def Obligations.ScriptIdentifiersRoundTrip : Prop :=
  (∀ is, decodeAll (encodeAll is) = .ok is) ∧
  (∀ cs is, decodeAll cs = .ok is ↔ cs = encodeAll is) ∧
  (∀ cs c, decodeAll cs = .error (.unassigned c) ↔
    ∃ is rest, cs = encodeAll is ++ c :: rest ∧ c.extractLsb' 0 3 > 4#3) ∧
  ∀ (env : TypeEnv) (ls : List Line), scriptWellFormed env ls = true →
    encodeScript ls = encodeAll (scriptOps ls) ∧ decodeAll (encodeScript ls) = .ok (scriptOps ls)

/-- R12, R77: where the next line is an operation line whose identifier decodes, whose source has the
operand's width and whose name is free, a step drives the operand onto the instance's input, runs exec of
the decoded operation, and binds the result the host reads. -/
def Obligations.StepRunsDecodedOperation : Prop :=
  ∀ (s : State) (dst : Nat) (c : Opid) (src : Src) (ls : List Line) (i : Instr) (x : Value),
    s.script = .op dst c src :: ls → decode c = .ok i → s.names.lookup dst = none →
    src.read s = .ok x → x.ty = operandTy i →
    ∃ d t, (s.setScript ls).drive i x = .ok d ∧ d.operand i = x ∧ exec i d = .next t ∧
      step s = .next (t.bindName dst (t.result i))

/-- A table word placed for the next step is fetched and run as exec of the operation it decodes to, on
what stands on that instance's input; the result is bound to a free name (model's own, log 3). -/
def Obligations.StepRunsPlacedTableWord : Prop :=
  ∀ (s : State) (nbits w : Nat) (i : Instr), decodeTableWord nbits w = some i →
    ∃ t n, exec i (s.setScript []) = .next t ∧ s.names.lookup n = none ∧
      step (s.withFetchWord nbits w) = .next (t.bindName n (t.result i))

/-- R170: a run ends when the script ends, with nothing in flight: a step with nothing asked for changes
nothing (log 4), and a step with something asked for leaves exactly the rest of the script. -/
def Obligations.RunEndsWithTheScript : Prop :=
  (∀ s : State, s.script = [] → step s = .next s) ∧
  ∀ (s t : State) (l : Line) (ls : List Line), s.script = l :: ls → step s = .next t → t.script = ls

/-- R74: an operation line with an unassigned identifier is refused by that name, whatever the rest of
the line (the model checks the identifier first, log 9), and a table word of that value names nothing. -/
def Obligations.UnassignedIdentifierRefused : Prop :=
  ∀ c ∈ [0x5#4, 0x6#4, 0x7#4, 0xD#4, 0xE#4, 0xF#4],
    (∀ (s : State) (dst : Nat) (src : Src) (ls : List Line), s.script = .op dst c src :: ls →
      step s = .refused (.unassignedOpid c)) ∧
    ∀ (s : State) (nbits : Nat), decodeTableWord nbits c.toNat = none ∧
      step (s.withFetchWord nbits c.toNat) = .refused (.unassignedOpid c)

/-- R77: an operand of another width than the operation's is refused; nothing is silently truncated or
widened. Among others a 64-bit operand for any 32-bit operation, and the reverse. -/
def Obligations.WrongWidthOperandRefused : Prop :=
  ∀ (s : State) (dst : Nat) (c : Opid) (src : Src) (ls : List Line) (i : Instr) (x : Value),
    s.script = .op dst c src :: ls → decode c = .ok i → s.names.lookup dst = none →
    src.read s = .ok x → x.ty ≠ operandTy i →
    step s = .refused (.widthMismatch (operandTy i) x.ty)

/-- R78, "Names are single-assignment" and "a name must be bound before it is used": a line of any kind
that binds a bound name is refused for it (an operation line with an unassigned identifier is refused for
that first), and a line of any kind that binds a free name and has an unbound source is refused for the
first such source, left to right, the sources before it being readable as the line asks. That the checks
come in this order is the model's choice (log 9, DESIGN CHOICE), and so is that a byte source may be a name
(log 10) and that ADD's first source may be of any kind (log 8). -/
def Obligations.NamesBoundOnceAndBeforeUse : Prop :=
  (∀ (s : State) (l : Line) (ls : List Line), s.script = l :: ls → l.ty? ≠ none →
    (s.names.lookup l.dst).isSome → step s = .refused (.nameTaken l.dst)) ∧
  (∀ (s : State) (l : Line) (ls : List Line) (before after : List Src) (n : Nat),
    s.script = l :: ls → l.ty? ≠ none → s.names.lookup l.dst = none →
    l.sources = before ++ .name n :: after → (∀ a ∈ before, ∃ b, a.readByte s = .ok b) →
    s.names.lookup n = none → step s = .refused (.unboundName n)) ∧
  ∀ (s : State) (dst n : Nat) (y : Src) (x : Value) (ls : List Line),
    s.script = .add dst y (.name n) :: ls → s.names.lookup dst = none → y.read s = .ok x →
    s.names.lookup n = none → step s = .refused (.unboundName n)

/-- R45 to R48, R78: what the host lines bind. ZEXT32 puts the byte in bits 7:0 and zeros above, LE32 and
LE64 put byte k in bits 8k+7:8k, ADD is the sum of naturals; none of them touches an instance. That a byte
source may be a name bound to an 8-bit value (log 10) and that ADD takes any two values, words and literals
among them (log 8), is the model's choice (DESIGN CHOICE) where R78 is silent. -/
def Obligations.HostLinesFormOperandsAndSums : Prop :=
  (∀ (s : State) (ls : List Line) (dst : Nat) (b : Src) (c : Byte),
    s.script = .zext32 dst b :: ls → s.names.lookup dst = none → b.readByte s = .ok c →
    ∃ x : Word32, step s = .next ((s.setScript ls).bindName dst (.word32 x)) ∧
      x.extractLsb' 0 8 = c ∧ x.extractLsb' 8 24 = 0) ∧
  (∀ (s : State) (ls : List Line) (dst : Nat) (b0 b1 b2 b3 : Src) (c0 c1 c2 c3 : Byte),
    s.script = .le32 dst b0 b1 b2 b3 :: ls → s.names.lookup dst = none →
    b0.readByte s = .ok c0 → b1.readByte s = .ok c1 → b2.readByte s = .ok c2 →
    b3.readByte s = .ok c3 →
    ∃ x : Word32, step s = .next ((s.setScript ls).bindName dst (.word32 x)) ∧
      field x 8 0 = c0 ∧ field x 8 1 = c1 ∧ field x 8 2 = c2 ∧ field x 8 3 = c3) ∧
  (∀ (s : State) (ls : List Line) (dst : Nat) (b0 b1 b2 b3 b4 b5 b6 b7 : Src)
      (c0 c1 c2 c3 c4 c5 c6 c7 : Byte),
    s.script = .le64 dst b0 b1 b2 b3 b4 b5 b6 b7 :: ls → s.names.lookup dst = none →
    b0.readByte s = .ok c0 → b1.readByte s = .ok c1 → b2.readByte s = .ok c2 →
    b3.readByte s = .ok c3 → b4.readByte s = .ok c4 → b5.readByte s = .ok c5 →
    b6.readByte s = .ok c6 → b7.readByte s = .ok c7 →
    ∃ x : Word64, step s = .next ((s.setScript ls).bindName dst (.word64 x)) ∧
      field x 8 0 = c0 ∧ field x 8 1 = c1 ∧ field x 8 2 = c2 ∧ field x 8 3 = c3 ∧
      field x 8 4 = c4 ∧ field x 8 5 = c5 ∧ field x 8 6 = c6 ∧ field x 8 7 = c7) ∧
  ∀ (s : State) (ls : List Line) (dst : Nat) (y z : Src) (a b : Value),
    s.script = .add dst y z :: ls → s.names.lookup dst = none → y.read s = .ok a → z.read s = .ok b →
    step s = .next ((s.setScript ls).bindName dst (.total (a.toNat + b.toNat)))

/-- R77, R78, R142: from any state whose script is well-formed where its names are bound, a step answers
a next state (no refusal, no hang), and what is left of the script is well-formed there. -/
def Obligations.WellFormedScriptRunsOn : Prop :=
  ∀ s : State, s.ScriptFits → ∃ t, step s = .next t ∧ t.ScriptFits

/-- R77, R78, R74: the well-formedness check refuses no line a step would run: a line that is not
well-formed where the names are bound is refused by a step. -/
def Obligations.IllFormedLineRefused : Prop :=
  ∀ (s : State) (l : Line) (ls : List Line), s.script = l :: ls → l.wellFormed s.types = false →
    ∃ r, step s = .refused r

/-! ### Every state of a run -/

/-- R30, R160, R161, R170: after reset every net has the value its rule gives for the operand present,
no name is bound and nothing is asked for. That the inputs are 0, so that every count reads 0, is the
model's choice (log 2, DESIGN CHOICE): the spec gives an input no reset value. -/
def Obligations.ResetMeetsInvariant : Prop :=
  State.reset.Inv ∧ State.reset.names = [] ∧ State.reset.script = [] ∧
  (∀ i, (State.reset.operand i).toNat = 0) ∧ ∀ i, (State.reset.result i).toNat = 0

/-- R30, R78: every step, from any state in which every net follows its input and no name is bound
twice, gives such a state. -/
def Obligations.StepKeepsInvariant : Prop :=
  ∀ s t : State, s.Inv → step s = .next t → t.Inv

/-- R30, "`count` is not forced to 0 by reset: it is 0 exactly when `v` is 0": in every state in which
the nets follow their inputs, `count` is the number of 1 bits of the operand present, and is 0 exactly
when that operand is 0, at both widths. -/
def Obligations.SettledCountIsPopulationCount : Prop :=
  ∀ s : State, s.Settled →
    s.popcnt32.count.toNat = popcnt s.popcnt32.v ∧ (s.popcnt32.count = 0 ↔ s.popcnt32.v = 0) ∧
    s.popcnt64.count.toNat = popcnt s.popcnt64.v ∧ (s.popcnt64.count = 0 ↔ s.popcnt64.v = 0)

/-! ### The ten operations: identifier, result, completion and frame -/

/-- R90: POPCNT32 answers a next state for every operand; every net is the pseudocode's; the count is the
number of 1 bits, 0 to 32; nothing else changes. -/
def Obligations.Popcnt32Result : Prop :=
  encode .popcnt32 = 0b0000#4 ∧ ∀ s : State, ∃ t, exec .popcnt32 s = .next t ∧ t = { s with popcnt32 := t.popcnt32 } ∧
    t.popcnt32.v = s.popcnt32.v ∧
    t.popcnt32.b1 = (s.popcnt32.v >>> 1) &&& 0x55555555#32 ∧
    t.popcnt32.s1 = s.popcnt32.v - t.popcnt32.b1 ∧
    t.popcnt32.lo2 = t.popcnt32.s1 &&& 0x33333333#32 ∧
    t.popcnt32.hi2 = (t.popcnt32.s1 >>> 2) &&& 0x33333333#32 ∧
    t.popcnt32.s2 = t.popcnt32.lo2 + t.popcnt32.hi2 ∧
    t.popcnt32.t3 = t.popcnt32.s2 + (t.popcnt32.s2 >>> 4) ∧
    t.popcnt32.s3 = t.popcnt32.t3 &&& 0x0F0F0F0F#32 ∧
    t.popcnt32.p = t.popcnt32.s3 * 0x01010101#32 ∧
    t.popcnt32.count = t.popcnt32.p.extractLsb' 24 8 ∧
    t.popcnt32.count.toNat = popcnt s.popcnt32.v ∧ t.popcnt32.count.toNat ≤ 32

/-- R91: POPCNT64, as R90 at width 64. -/
def Obligations.Popcnt64Result : Prop :=
  encode .popcnt64 = 0b1000#4 ∧ ∀ s : State, ∃ t, exec .popcnt64 s = .next t ∧ t = { s with popcnt64 := t.popcnt64 } ∧
    t.popcnt64.v = s.popcnt64.v ∧
    t.popcnt64.b1 = (s.popcnt64.v >>> 1) &&& 0x5555555555555555#64 ∧
    t.popcnt64.s1 = s.popcnt64.v - t.popcnt64.b1 ∧
    t.popcnt64.lo2 = t.popcnt64.s1 &&& 0x3333333333333333#64 ∧
    t.popcnt64.hi2 = (t.popcnt64.s1 >>> 2) &&& 0x3333333333333333#64 ∧
    t.popcnt64.s2 = t.popcnt64.lo2 + t.popcnt64.hi2 ∧
    t.popcnt64.t3 = t.popcnt64.s2 + (t.popcnt64.s2 >>> 4) ∧
    t.popcnt64.s3 = t.popcnt64.t3 &&& 0x0F0F0F0F0F0F0F0F#64 ∧
    t.popcnt64.p = t.popcnt64.s3 * 0x0101010101010101#64 ∧
    t.popcnt64.count = t.popcnt64.p.extractLsb' 56 8 ∧
    t.popcnt64.count.toNat = popcnt s.popcnt64.v ∧ t.popcnt64.count.toNat ≤ 64

/-- R115: PAIRSUM32: nets, no borrow, each pair of the result counts the pair's two bits, and holds at
most 2; nothing else changes. -/
def Obligations.Pairsum32Result : Prop :=
  encode .pairsum32 = 0b0001#4 ∧ ∀ s : State, ∃ t, exec .pairsum32 s = .next t ∧ t = { s with pairsum32 := t.pairsum32 } ∧
    t.pairsum32.v = s.pairsum32.v ∧
    t.pairsum32.b1 = (s.pairsum32.v >>> 1) &&& 0x55555555#32 ∧
    t.pairsum32.s1 = s.pairsum32.v - t.pairsum32.b1 ∧
    t.pairsum32.s1.toNat + t.pairsum32.b1.toNat = s.pairsum32.v.toNat ∧
    CountsPairs s.pairsum32.v t.pairsum32.s1 ∧ FieldsAtMost 2 2 t.pairsum32.s1

/-- R116: PAIRSUM64, as R115 at width 64, and the two halves are processed as PAIRSUM32 would. -/
def Obligations.Pairsum64Result : Prop :=
  encode .pairsum64 = 0b1001#4 ∧ ∀ s : State, ∃ t, exec .pairsum64 s = .next t ∧ t = { s with pairsum64 := t.pairsum64 } ∧
    t.pairsum64.v = s.pairsum64.v ∧
    t.pairsum64.b1 = (s.pairsum64.v >>> 1) &&& 0x5555555555555555#64 ∧
    t.pairsum64.s1 = s.pairsum64.v - t.pairsum64.b1 ∧
    t.pairsum64.s1.toNat + t.pairsum64.b1.toNat = s.pairsum64.v.toNat ∧
    CountsPairs s.pairsum64.v t.pairsum64.s1 ∧ FieldsAtMost 2 2 t.pairsum64.s1 ∧
    t.pairsum64.s1 = (pairNets32 (s.pairsum64.v.extractLsb' 32 32)).s1 ++
      (pairNets32 (s.pairsum64.v.extractLsb' 0 32)).s1

/-- R117: NIBSUM32: nets, each nibble of the result is the sum of the nibble's two pairs, at most 6 for
every input and at most 4 for an input in format PC2, and the addition never wraps; nothing else changes. -/
def Obligations.Nibsum32Result : Prop :=
  encode .nibsum32 = 0b0010#4 ∧ ∀ s : State, ∃ t, exec .nibsum32 s = .next t ∧ t = { s with nibsum32 := t.nibsum32 } ∧
    t.nibsum32.s1 = s.nibsum32.s1 ∧
    t.nibsum32.lo2 = s.nibsum32.s1 &&& 0x33333333#32 ∧
    t.nibsum32.hi2 = (s.nibsum32.s1 >>> 2) &&& 0x33333333#32 ∧
    t.nibsum32.s2 = t.nibsum32.lo2 + t.nibsum32.hi2 ∧
    t.nibsum32.s2.toNat = t.nibsum32.lo2.toNat + t.nibsum32.hi2.toNat ∧
    SumsPairs s.nibsum32.s1 t.nibsum32.s2 ∧ FieldsAtMost 4 6 t.nibsum32.s2 ∧
    (FieldsAtMost 2 2 s.nibsum32.s1 → FieldsAtMost 4 4 t.nibsum32.s2)

/-- R118: NIBSUM64, as R117 at width 64, and the two halves are processed as NIBSUM32 would. -/
def Obligations.Nibsum64Result : Prop :=
  encode .nibsum64 = 0b1010#4 ∧ ∀ s : State, ∃ t, exec .nibsum64 s = .next t ∧ t = { s with nibsum64 := t.nibsum64 } ∧
    t.nibsum64.s1 = s.nibsum64.s1 ∧
    t.nibsum64.lo2 = s.nibsum64.s1 &&& 0x3333333333333333#64 ∧
    t.nibsum64.hi2 = (s.nibsum64.s1 >>> 2) &&& 0x3333333333333333#64 ∧
    t.nibsum64.s2 = t.nibsum64.lo2 + t.nibsum64.hi2 ∧
    t.nibsum64.s2.toNat = t.nibsum64.lo2.toNat + t.nibsum64.hi2.toNat ∧
    SumsPairs s.nibsum64.s1 t.nibsum64.s2 ∧ FieldsAtMost 4 6 t.nibsum64.s2 ∧
    (FieldsAtMost 2 2 s.nibsum64.s1 → FieldsAtMost 4 4 t.nibsum64.s2) ∧
    t.nibsum64.s2 = (nibNets32 (s.nibsum64.s1.extractLsb' 32 32)).s2 ++
      (nibNets32 (s.nibsum64.s1.extractLsb' 0 32)).s2

/-- R119: BYTESUM32: nets for every input; where every nibble is at most 7, each byte of the result is the
sum of the byte's two nibbles; for an input in format PC4 it is at most 8, no carry crosses a nibble and
the addition does not wrap; nothing else changes. -/
def Obligations.Bytesum32Result : Prop :=
  encode .bytesum32 = 0b0011#4 ∧ ∀ s : State, ∃ t, exec .bytesum32 s = .next t ∧ t = { s with bytesum32 := t.bytesum32 } ∧
    t.bytesum32.s2 = s.bytesum32.s2 ∧
    t.bytesum32.t3 = s.bytesum32.s2 + (s.bytesum32.s2 >>> 4) ∧
    t.bytesum32.s3 = t.bytesum32.t3 &&& 0x0F0F0F0F#32 ∧
    (FieldsAtMost 4 7 s.bytesum32.s2 → SumsNibbles s.bytesum32.s2 t.bytesum32.s3) ∧
    (FieldsAtMost 4 4 s.bytesum32.s2 → FieldsAtMost 8 8 t.bytesum32.s3 ∧
      AddsNextNibble s.bytesum32.s2 t.bytesum32.t3 ∧
      t.bytesum32.t3.toNat = s.bytesum32.s2.toNat + (s.bytesum32.s2 >>> 4).toNat)

/-- R120: BYTESUM64, as R119 at width 64, and for an input in format PC4 the two halves are processed as
BYTESUM32 would. -/
def Obligations.Bytesum64Result : Prop :=
  encode .bytesum64 = 0b1011#4 ∧ ∀ s : State, ∃ t, exec .bytesum64 s = .next t ∧ t = { s with bytesum64 := t.bytesum64 } ∧
    t.bytesum64.s2 = s.bytesum64.s2 ∧
    t.bytesum64.t3 = s.bytesum64.s2 + (s.bytesum64.s2 >>> 4) ∧
    t.bytesum64.s3 = t.bytesum64.t3 &&& 0x0F0F0F0F0F0F0F0F#64 ∧
    (FieldsAtMost 4 7 s.bytesum64.s2 → SumsNibbles s.bytesum64.s2 t.bytesum64.s3) ∧
    (FieldsAtMost 4 4 s.bytesum64.s2 → FieldsAtMost 8 8 t.bytesum64.s3 ∧
      AddsNextNibble s.bytesum64.s2 t.bytesum64.t3 ∧
      t.bytesum64.t3.toNat = s.bytesum64.s2.toNat + (s.bytesum64.s2 >>> 4).toNat ∧
      t.bytesum64.s3 = (byteNets32 (s.bytesum64.s2.extractLsb' 32 32)).s3 ++
        (byteNets32 (s.bytesum64.s2.extractLsb' 0 32)).s3)

/-- R121: HSUM32: nets for every input, the count being bits 31:24 of the product; where the bytes add up
to at most 255, the count is their sum and byte j of the product the sum of bytes 0..j; for an input in
format PC8 they add up to at most 32; nothing else changes. -/
def Obligations.Hsum32Result : Prop :=
  encode .hsum32 = 0b0100#4 ∧ ∀ s : State, ∃ t, exec .hsum32 s = .next t ∧ t = { s with hsum32 := t.hsum32 } ∧
    t.hsum32.s3 = s.hsum32.s3 ∧
    t.hsum32.p = s.hsum32.s3 * 0x01010101#32 ∧
    t.hsum32.count = t.hsum32.p.extractLsb' 24 8 ∧
    (byteSumBelow s.hsum32.s3 4 ≤ 255 → t.hsum32.count.toNat = byteSumBelow s.hsum32.s3 4 ∧
      PrefixSums s.hsum32.s3 t.hsum32.p) ∧
    (FieldsAtMost 8 8 s.hsum32.s3 → byteSumBelow s.hsum32.s3 4 ≤ 32)

/-- R122: HSUM64, as R121 at width 64, with at most 64 for an input in format PC8. -/
def Obligations.Hsum64Result : Prop :=
  encode .hsum64 = 0b1100#4 ∧ ∀ s : State, ∃ t, exec .hsum64 s = .next t ∧ t = { s with hsum64 := t.hsum64 } ∧
    t.hsum64.s3 = s.hsum64.s3 ∧
    t.hsum64.p = s.hsum64.s3 * 0x0101010101010101#64 ∧
    t.hsum64.count = t.hsum64.p.extractLsb' 56 8 ∧
    (byteSumBelow s.hsum64.s3 8 ≤ 255 → t.hsum64.count.toNat = byteSumBelow s.hsum64.s3 8 ∧
      PrefixSums s.hsum64.s3 t.hsum64.p) ∧
    (FieldsAtMost 8 8 s.hsum64.s3 → byteSumBelow s.hsum64.s3 8 ≤ 64)

/-! ### Evaluations of the whole machine -/

/-- R92 at the machine: a step that runs a POPCNT line binds, for the host, exactly the number of 1 bits
of the operand, at both widths. -/
def Obligations.StepCountsExactly : Prop :=
  (∀ (s : State) (dst : Nat) (src : Src) (ls : List Line) (v : Word32),
    s.script = .op dst 0x0#4 src :: ls → s.names.lookup dst = none → src.read s = .ok (.word32 v) →
    ∃ t c, step s = .next t ∧ t.names = (dst, .byte c) :: s.names ∧ c.toNat = popcnt v) ∧
  ∀ (s : State) (dst : Nat) (src : Src) (ls : List Line) (v : Word64),
    s.script = .op dst 0x8#4 src :: ls → s.names.lookup dst = none → src.read s = .ok (.word64 v) →
    ∃ t c, step s = .next t ∧ t.names = (dst, .byte c) :: s.names ∧ c.toNat = popcnt v

/-- R12, R43, R98, R148: an evaluation of any operation on any operand of its width completes from every
state; no net of its instance, and so nothing the host reads, depends on the state; the host's names and
script and every port and net of every other instance are untouched; and evaluating the same operand again
changes nothing. -/
def Obligations.EvaluationTotalPureRepeatable : Prop :=
  ∀ (i : Instr) (x : Value) (s s' : State), x.ty = operandTy i →
    ∃ t t', evaluate i x s = .next t ∧ evaluate i x s' = .next t' ∧
      t.operand i = x ∧ t.netsOf i = t'.netsOf i ∧ t.result i = t'.result i ∧
      (t.result i).ty = resultTy i ∧
      t.names = s.names ∧ t.script = s.script ∧
      (∀ j, j ≠ i → t.netsOf j = s.netsOf j) ∧
      evaluate i x t = .next t

/-- R51: evaluations of two different operations may be made in either order, to the same state. -/
def Obligations.EvaluationsCommute : Prop :=
  ∀ (i j : Instr) (x y : Value) (s : State), i ≠ j → x.ty = operandTy i → y.ty = operandTy j →
    ∃ a b t, evaluate i x s = .next a ∧ evaluate j y a = .next t ∧
      evaluate j y s = .next b ∧ evaluate i x b = .next t

/-- R78, "lines are independent of order except that a name must be bound before it is used": two
adjacent lines of which the second runs also without the first give every name the same value in either
order. -/
def Obligations.AdjacentLinesCommute : Prop :=
  ∀ (k l : Line) (s a t b : State), runLine k s = .next a → runLine l a = .next t →
    runLine l s = .next b →
    ∃ u, runLine k b = .next u ∧ ∀ n, u.names.lookup n = t.names.lookup n

/-- R99: the four stage operations in sequence, each on the result the host read from the one before,
give net by net what the whole-word operation gives, at both widths. -/
def Obligations.StagesInSequenceEqualTheWhole : Prop :=
  (∀ (s : State) (v : Word32), ∃ a b c d e,
    evaluate .pairsum32 (.word32 v) s = .next a ∧
    evaluate .nibsum32 (a.result .pairsum32) a = .next b ∧
    evaluate .bytesum32 (b.result .nibsum32) b = .next c ∧
    evaluate .hsum32 (c.result .bytesum32) c = .next d ∧
    evaluate .popcnt32 (.word32 v) d = .next e ∧
    e.result .popcnt32 = d.result .hsum32 ∧
    e.popcnt32 = ⟨v, e.pairsum32.b1, e.pairsum32.s1, e.nibsum32.lo2, e.nibsum32.hi2, e.nibsum32.s2,
      e.bytesum32.t3, e.bytesum32.s3, e.hsum32.p, e.hsum32.count⟩) ∧
  ∀ (s : State) (v : Word64), ∃ a b c d e,
    evaluate .pairsum64 (.word64 v) s = .next a ∧
    evaluate .nibsum64 (a.result .pairsum64) a = .next b ∧
    evaluate .bytesum64 (b.result .nibsum64) b = .next c ∧
    evaluate .hsum64 (c.result .bytesum64) c = .next d ∧
    evaluate .popcnt64 (.word64 v) d = .next e ∧
    e.result .popcnt64 = d.result .hsum64 ∧
    e.popcnt64 = ⟨v, e.pairsum64.b1, e.pairsum64.s1, e.nibsum64.lo2, e.nibsum64.hi2, e.nibsum64.s2,
      e.bytesum64.t3, e.bytesum64.s3, e.hsum64.p, e.hsum64.count⟩

/-! ### What the whole-word operations guarantee -/

/-- R93: the range of `count`, its clear high bits, when its top used bit is set, and that every value of
the range is attained by 2^k - 1. -/
def Obligations.CountRange : Prop :=
  (∀ v : Word32, (wordNets32 v).count.toNat ≤ 32 ∧ (wordNets32 v).count.extractLsb' 6 2 = 0 ∧
    ((wordNets32 v).count.getLsbD 5 = true ↔ v = 0xFFFFFFFF#32) ∧
    ((wordNets32 v).count = 32#8 ↔ v = 0xFFFFFFFF#32)) ∧
  (∀ v : Word64, (wordNets64 v).count.toNat ≤ 64 ∧ (wordNets64 v).count.getLsbD 7 = false ∧
    ((wordNets64 v).count.getLsbD 6 = true ↔ v = 0xFFFFFFFFFFFFFFFF#64) ∧
    ((wordNets64 v).count = 64#8 ↔ v = 0xFFFFFFFFFFFFFFFF#64)) ∧
  (∀ k ≤ 32, (wordNets32 (BitVec.ofNat 32 (2 ^ k - 1))).count.toNat = k) ∧
  ∀ k ≤ 64, (wordNets64 (BitVec.ofNat 64 (2 ^ k - 1))).count.toNat = k

/-- R94: the document's known values, their 64-bit analogues zero-extended, and the repeated patterns. -/
def Obligations.KnownValues : Prop :=
  (wordNets32 0x00000000#32).count = 0#8 ∧ (wordNets32 0x00000001#32).count = 1#8 ∧
  (wordNets32 0xF0F0F0F0#32).count = 16#8 ∧ (wordNets32 0xFFFFFFFF#32).count = 32#8 ∧
  (wordNets64 0x0000000000000000#64).count = 0#8 ∧ (wordNets64 0x0000000000000001#64).count = 1#8 ∧
  (wordNets64 0x00000000F0F0F0F0#64).count = 16#8 ∧
  (wordNets64 0x00000000FFFFFFFF#64).count = 32#8 ∧
  (wordNets64 0xF0F0F0F0F0F0F0F0#64).count = 32#8 ∧
  (wordNets64 0xFFFFFFFFFFFFFFFF#64).count = 64#8

/-- R95: for every byte, the count of its zero-extension is the byte's own number of 1 bits. -/
def Obligations.ByteOperandsCounted : Prop :=
  ∀ c : Byte, (wordNets32 (zext32 c)).count.toNat = popcnt c ∧
    (wordNets64 (c.setWidth 64)).count.toNat = popcnt c

/-- R96 (a), (b), (c): the count of a word is the sum of the counts of its halves and of its bytes, and
the count of two words with no common bit is the sum of theirs. -/
def Obligations.CountSplits : Prop :=
  (∀ hi lo : Word32, (wordNets64 (hi ++ lo)).count.toNat =
    (wordNets32 hi).count.toNat + (wordNets32 lo).count.toNat) ∧
  (∀ c0 c1 c2 c3 : Byte, (wordNets32 (le32 c0 c1 c2 c3)).count.toNat =
    popcnt c0 + popcnt c1 + popcnt c2 + popcnt c3) ∧
  (∀ c0 c1 c2 c3 c4 c5 c6 c7 : Byte, (wordNets64 (le64 c0 c1 c2 c3 c4 c5 c6 c7)).count.toNat =
    popcnt c0 + popcnt c1 + popcnt c2 + popcnt c3 + popcnt c4 + popcnt c5 + popcnt c6 + popcnt c7) ∧
  (∀ a b : Word32, a &&& b = 0 → (wordNets32 (a ||| b)).count.toNat =
    (wordNets32 a).count.toNat + (wordNets32 b).count.toNat) ∧
  ∀ a b : Word64, a &&& b = 0 → (wordNets64 (a ||| b)).count.toNat =
    (wordNets64 a).count.toNat + (wordNets64 b).count.toNat

/-- R96 (d), (e), (f), (g): the count of the complement, the operands with the least and the greatest
count, the count of a single bit, and the count after clearing the lowest 1 bit. -/
def Obligations.CountIdentities : Prop :=
  (∀ v : Word32, (wordNets32 (~~~v)).count.toNat + (wordNets32 v).count.toNat = 32 ∧
    ((wordNets32 v).count = 0#8 ↔ v = 0) ∧ ((wordNets32 v).count = 32#8 ↔ v = 0xFFFFFFFF#32) ∧
    (v ≠ 0 → (wordNets32 v).count.toNat = (wordNets32 (v &&& (v - 1))).count.toNat + 1)) ∧
  (∀ i < 32, (wordNets32 (1#32 <<< i)).count = 1#8) ∧
  (∀ v : Word64, (wordNets64 (~~~v)).count.toNat + (wordNets64 v).count.toNat = 64 ∧
    ((wordNets64 v).count = 0#8 ↔ v = 0) ∧
    ((wordNets64 v).count = 64#8 ↔ v = 0xFFFFFFFFFFFFFFFF#64) ∧
    (v ≠ 0 → (wordNets64 v).count.toNat = (wordNets64 (v &&& (v - 1))).count.toNat + 1)) ∧
  ∀ i < 64, (wordNets64 (1#64 <<< i)).count = 1#8

/-- R96 (h), R41: the count is unchanged by any permutation of the bit positions of the operand. -/
def Obligations.CountIgnoresBitOrder : Prop :=
  (∀ (f : Equiv.Perm (Fin 32)) (x y : Word32), (∀ i : Fin 32, y.getLsb i = x.getLsb (f i)) →
    (wordNets32 y).count = (wordNets32 x).count) ∧
  ∀ (f : Equiv.Perm (Fin 64)) (x y : Word64), (∀ i : Fin 64, y.getLsb i = x.getLsb (f i)) →
    (wordNets64 y).count = (wordNets64 x).count

/-- R97: zero-extending a 32-bit operand to 64 bits keeps its count. -/
def Obligations.ZeroExtensionKeepsCount : Prop :=
  ∀ x : Word32, (wordNets64 (x.setWidth 64)).count = (wordNets32 x).count

/-- R61 to R64: the packed formats of the nets of a whole-word instance: each pair of `s1`, nibble of `s2`
and byte of `s3` holds the number of 1 bits of that pair, nibble or byte of the operand, and byte j of `p`
the sum of bytes 0..j of `s3`, the number of 1 bits in bits 8j+7..0; the largest `p`. -/
def Obligations.NetsHoldPackedCounts : Prop :=
  (∀ v : Word32,
    (∀ i < 16, (field (wordNets32 v).s1 2 i).toNat = popcnt (field v 2 i) ∧
      field (wordNets32 v).s1 2 i ≠ 0b11#2) ∧
    (∀ j < 8, (field (wordNets32 v).s2 4 j).toNat = popcnt (field v 4 j) ∧
      (wordNets32 v).s2.getLsbD (4 * j + 3) = false) ∧
    (∀ k < 4, (field (wordNets32 v).s3 8 k).toNat = popcnt (field v 8 k) ∧
      (field (wordNets32 v).s3 8 k).extractLsb' 4 4 = 0) ∧
    (∀ j < 4, (field (wordNets32 v).p 8 j).toNat = popcntBelow v (8 * j + 8)) ∧
    PrefixSums (wordNets32 v).s3 (wordNets32 v).p ∧
    (wordNets32 v).p ≤ 0x20181008#32) ∧
  (wordNets32 0xFFFFFFFF#32).p = 0x20181008#32 ∧
  (∀ v : Word64,
    (∀ i < 32, (field (wordNets64 v).s1 2 i).toNat = popcnt (field v 2 i) ∧
      field (wordNets64 v).s1 2 i ≠ 0b11#2) ∧
    (∀ j < 16, (field (wordNets64 v).s2 4 j).toNat = popcnt (field v 4 j) ∧
      (wordNets64 v).s2.getLsbD (4 * j + 3) = false) ∧
    (∀ k < 8, (field (wordNets64 v).s3 8 k).toNat = popcnt (field v 8 k) ∧
      (field (wordNets64 v).s3 8 k).extractLsb' 4 4 = 0) ∧
    (∀ j < 8, (field (wordNets64 v).p 8 j).toNat = popcntBelow v (8 * j + 8)) ∧
    PrefixSums (wordNets64 v).s3 (wordNets64 v).p ∧
    (wordNets64 v).p ≤ 0x4038302820181008#64) ∧
  (wordNets64 0xFFFFFFFFFFFFFFFF#64).p = 0x4038302820181008#64

/-! ### The lemmas of the reduction tree -/

/-- R123: each pair of PAIRSUM counts the operand's two bits, the subtraction needs no borrow, and the
result is also the sum of the even bits and the odd bits, an addition that never wraps. -/
def Obligations.PairLemma : Prop :=
  (∀ x : Word32, CountsPairs x (pairNets32 x).s1 ∧ (pairNets32 x).b1 ≤ x ∧
    (pairNets32 x).s1 = (x &&& m1_32) + ((x >>> 1) &&& m1_32) ∧
    (x &&& m1_32).toNat + ((x >>> 1) &&& m1_32).toNat < 2 ^ 32) ∧
  ∀ x : Word64, CountsPairs x (pairNets64 x).s1 ∧ (pairNets64 x).b1 ≤ x ∧
    (pairNets64 x).s1 = (x &&& m1_64) + ((x >>> 1) &&& m1_64) ∧
    (x &&& m1_64).toNat + ((x >>> 1) &&& m1_64).toNat < 2 ^ 64

/-- R124: each nibble of NIBSUM is the sum of the input's two pairs, 0 to 6, and the addition carries out
of no nibble; for an input in format PC2 it is at most 4; on the result of PAIRSUM it counts the 1 bits of
that nibble of the original operand. -/
def Obligations.NibbleLemma : Prop :=
  (∀ x : Word32, SumsPairs x (nibNets32 x).s2 ∧ FieldsAtMost 4 6 (nibNets32 x).s2 ∧
    (∀ j < 8, (field (nibNets32 x).s2 4 j).toNat =
      (field (nibNets32 x).lo2 4 j).toNat + (field (nibNets32 x).hi2 4 j).toNat) ∧
    (FieldsAtMost 2 2 x → FieldsAtMost 4 4 (nibNets32 x).s2)) ∧
  (∀ v : Word32, ∀ j < 8,
    (field (nibNets32 (pairNets32 v).s1).s2 4 j).toNat = popcnt (field v 4 j)) ∧
  (∀ x : Word64, SumsPairs x (nibNets64 x).s2 ∧ FieldsAtMost 4 6 (nibNets64 x).s2 ∧
    (∀ j < 16, (field (nibNets64 x).s2 4 j).toNat =
      (field (nibNets64 x).lo2 4 j).toNat + (field (nibNets64 x).hi2 4 j).toNat) ∧
    (FieldsAtMost 2 2 x → FieldsAtMost 4 4 (nibNets64 x).s2)) ∧
  ∀ v : Word64, ∀ j < 16,
    (field (nibNets64 (pairNets64 v).s1).s2 4 j).toNat = popcnt (field v 4 j)

/-- R125: where any two adjacent nibbles of the input add up to at most 15 (so in particular where each is
at most 7), each byte of BYTESUM is the sum of the input's two nibbles, and the addition carries out of no
nibble and does not wrap; for an input in format PC4 a byte is at most 8, and on the result of NIBSUM it
counts the 1 bits of that byte of the original operand. -/
def Obligations.ByteLemma : Prop :=
  (∀ x : Word32, NibblesFit x → SumsNibbles x (byteNets32 x).s3 ∧ AddsNextNibble x (byteNets32 x).t3 ∧
    x.toNat + (x >>> 4).toNat < 2 ^ 32) ∧
  (∀ x : Word32, (FieldsAtMost 4 7 x → NibblesFit x) ∧
    (FieldsAtMost 4 4 x → FieldsAtMost 8 8 (byteNets32 x).s3)) ∧
  (∀ v : Word32, ∀ k < 4,
    (field (byteNets32 (nibNets32 (pairNets32 v).s1).s2).s3 8 k).toNat = popcnt (field v 8 k)) ∧
  (∀ x : Word64, NibblesFit x → SumsNibbles x (byteNets64 x).s3 ∧ AddsNextNibble x (byteNets64 x).t3 ∧
    x.toNat + (x >>> 4).toNat < 2 ^ 64) ∧
  (∀ x : Word64, (FieldsAtMost 4 7 x → NibblesFit x) ∧
    (FieldsAtMost 4 4 x → FieldsAtMost 8 8 (byteNets64 x).s3)) ∧
  ∀ v : Word64, ∀ k < 8,
    (field (byteNets64 (nibNets64 (pairNets64 v).s1).s2).s3 8 k).toNat = popcnt (field v 8 k)

/-- R126: the product by `H` is, modulo 2^W, the sum of the prefix sums of the bytes, each at its byte;
where all bytes add up to at most 255 it holds exactly them and the count is the total; for an input in
format PC8 each prefix sum is at most 8(j+1). -/
def Obligations.HorizontalSumLemma : Prop :=
  (∀ x : Word32, (sumNets32 x).p.toNat = prefixWordBelow x 4 % 2 ^ 32 ∧
    (byteSumBelow x 4 ≤ 255 → PrefixSums x (sumNets32 x).p ∧
      (sumNets32 x).count.toNat = byteSumBelow x 4) ∧
    (FieldsAtMost 8 8 x → ∀ j < 4, byteSumBelow x (j + 1) ≤ 8 * (j + 1))) ∧
  ∀ x : Word64, (sumNets64 x).p.toNat = prefixWordBelow x 8 % 2 ^ 64 ∧
    (byteSumBelow x 8 ≤ 255 → PrefixSums x (sumNets64 x).p ∧
      (sumNets64 x).count.toNat = byteSumBelow x 8) ∧
    (FieldsAtMost 8 8 x → ∀ j < 8, byteSumBelow x (j + 1) ≤ 8 * (j + 1))

/-- R127: inside the pipeline steps 1 to 3 neither borrow nor carry out of the word, so that they are
plain arithmetic of naturals; the product of step 4 does reach 2^W for some operand. -/
def Obligations.PipelineNeverWrapsBeforeTheProduct : Prop :=
  (∀ v : Word32, (wordNets32 v).s1.toNat + (wordNets32 v).b1.toNat = v.toNat ∧
    (wordNets32 v).s2.toNat = (wordNets32 v).lo2.toNat + (wordNets32 v).hi2.toNat ∧
    (wordNets32 v).t3.toNat = (wordNets32 v).s2.toNat + ((wordNets32 v).s2 >>> 4).toNat) ∧
  (∃ v : Word32, 2 ^ 32 ≤ (wordNets32 v).s3.toNat * h_32.toNat ∧
    (wordNets32 v).p.toNat ≠ (wordNets32 v).s3.toNat * h_32.toNat) ∧
  (∀ v : Word64, (wordNets64 v).s1.toNat + (wordNets64 v).b1.toNat = v.toNat ∧
    (wordNets64 v).s2.toNat = (wordNets64 v).lo2.toNat + (wordNets64 v).hi2.toNat ∧
    (wordNets64 v).t3.toNat = (wordNets64 v).s2.toNat + ((wordNets64 v).s2 >>> 4).toNat) ∧
  ∃ v : Word64, 2 ^ 64 ≤ (wordNets64 v).s3.toNat * h_64.toNat ∧
    (wordNets64 v).p.toNat ≠ (wordNets64 v).s3.toNat * h_64.toNat

/-- R128: with arithmetic shifts in place of logical ones, every output of every operation is the same for
every input word, and inside the whole datapath every net is; only `t3` of BYTESUM taken alone can differ,
and does for 0x80000000. -/
def Obligations.ShiftKindDoesNotMatter : Prop :=
  (∀ x : Word32, pairNetsSar m1_32 x = pairNets32 x ∧ nibNetsSar m2_32 x = nibNets32 x ∧
    (byteNetsSar m3_32 x).s3 = (byteNets32 x).s3 ∧ sumNetsSar h_32 x = sumNets32 x ∧
    wordNetsSar m1_32 m2_32 m3_32 h_32 x = wordNets32 x) ∧
  (∀ x : Word64, pairNetsSar m1_64 x = pairNets64 x ∧ nibNetsSar m2_64 x = nibNets64 x ∧
    (byteNetsSar m3_64 x).s3 = (byteNets64 x).s3 ∧ sumNetsSar h_64 x = sumNets64 x ∧
    wordNetsSar m1_64 m2_64 m3_64 h_64 x = wordNets64 x) ∧
  (byteNets32 0x80000000#32).t3 = 0x88000000#32 ∧
  (byteNetsSar m3_32 0x80000000#32).t3 = 0x78000000#32 ∧
  (byteNets32 0x80000000#32).s3 = 0x08000000#32

/-- R129: the range of every net, for every operand, and that the operand of all ones attains each
maximum. -/
def Obligations.NetRanges : Prop :=
  (∀ v : Word32, FieldsAtMost 2 1 (wordNets32 v).b1 ∧
    FieldsAtMost 2 2 (wordNets32 v).s1 ∧ (wordNets32 v).s1 ≤ 0xAAAAAAAA#32 ∧
    FieldsAtMost 4 2 (wordNets32 v).lo2 ∧ FieldsAtMost 4 2 (wordNets32 v).hi2 ∧
    FieldsAtMost 4 4 (wordNets32 v).s2 ∧ (wordNets32 v).s2 ≤ 0x44444444#32 ∧
    FieldsAtMost 4 8 (wordNets32 v).t3 ∧ (field (wordNets32 v).t3 4 7).toNat ≤ 4 ∧
    (wordNets32 v).t3 ≤ 0x48888888#32 ∧
    FieldsAtMost 8 8 (wordNets32 v).s3 ∧ (wordNets32 v).s3 ≤ 0x08080808#32 ∧
    (∀ j < 4, (field (wordNets32 v).p 8 j).toNat ≤ 8 * (j + 1)) ∧
    (wordNets32 v).p ≤ 0x20181008#32 ∧ (wordNets32 v).count.toNat ≤ 32) ∧
  wordNets32 0xFFFFFFFF#32 = ⟨0xFFFFFFFF#32, 0x55555555#32, 0xAAAAAAAA#32, 0x22222222#32, 0x22222222#32,
    0x44444444#32, 0x48888888#32, 0x08080808#32, 0x20181008#32, 32#8⟩ ∧
  (∀ v : Word64, FieldsAtMost 2 1 (wordNets64 v).b1 ∧
    FieldsAtMost 2 2 (wordNets64 v).s1 ∧ (wordNets64 v).s1 ≤ 0xAAAAAAAAAAAAAAAA#64 ∧
    FieldsAtMost 4 2 (wordNets64 v).lo2 ∧ FieldsAtMost 4 2 (wordNets64 v).hi2 ∧
    FieldsAtMost 4 4 (wordNets64 v).s2 ∧ (wordNets64 v).s2 ≤ 0x4444444444444444#64 ∧
    FieldsAtMost 4 8 (wordNets64 v).t3 ∧ (field (wordNets64 v).t3 4 15).toNat ≤ 4 ∧
    (wordNets64 v).t3 ≤ 0x4888888888888888#64 ∧
    FieldsAtMost 8 8 (wordNets64 v).s3 ∧ (wordNets64 v).s3 ≤ 0x0808080808080808#64 ∧
    (∀ j < 8, (field (wordNets64 v).p 8 j).toNat ≤ 8 * (j + 1)) ∧
    (wordNets64 v).p ≤ 0x4038302820181008#64 ∧ (wordNets64 v).count.toNat ≤ 64) ∧
  wordNets64 0xFFFFFFFFFFFFFFFF#64 = ⟨0xFFFFFFFFFFFFFFFF#64, 0x5555555555555555#64,
    0xAAAAAAAAAAAAAAAA#64, 0x2222222222222222#64, 0x2222222222222222#64, 0x4444444444444444#64,
    0x4888888888888888#64, 0x0808080808080808#64, 0x4038302820181008#64, 64#8⟩

/-- R131: the product of step 4 is the sum of the input shifted left by 0, 8, 16 and so on, for every
input, so that step 4 may be built of adders. -/
def Obligations.ProductIsShiftAndAdd : Prop :=
  (∀ x : Word32, (sumNets32 x).p = shiftAddBelow x 4 ∧
    (sumNets32 x).count = (shiftAddBelow x 4).extractLsb' 24 8) ∧
  ∀ x : Word64, (sumNets64 x).p = shiftAddBelow x 8 ∧
    (sumNets64 x).count = (shiftAddBelow x 8).extractLsb' 56 8

/-- R132: the datapath is equivalent to a tree of small adders, three levels deep, followed by a chain:
they give the same `s1`, `s2`, `s3`, `p` and `count` for every operand, at both widths. -/
def Obligations.AdderTreeEquivalent : Prop :=
  (∀ v : Word32, treePairs v = (wordNets32 v).s1 ∧ treeNibbles (treePairs v) = (wordNets32 v).s2 ∧
    treeBytes (treeNibbles (treePairs v)) = (wordNets32 v).s3 ∧
    treePrefixes (treeBytes (treeNibbles (treePairs v))) = (wordNets32 v).p ∧
    chain (treeBytes (treeNibbles (treePairs v))) 3 = (wordNets32 v).count) ∧
  ∀ v : Word64, treePairs v = (wordNets64 v).s1 ∧ treeNibbles (treePairs v) = (wordNets64 v).s2 ∧
    treeBytes (treeNibbles (treePairs v)) = (wordNets64 v).s3 ∧
    treePrefixes (treeBytes (treeNibbles (treePairs v))) = (wordNets64 v).p ∧
    chain (treeBytes (treeNibbles (treePairs v))) 7 = (wordNets64 v).count

/-- R134: how the 64-bit stages act on the two 32-bit halves of a word. -/
def Obligations.StagesActOnHalves : Prop :=
  ∀ hi lo : Word32,
    (pairNets64 (hi ++ lo)).s1 = (pairNets32 hi).s1 ++ (pairNets32 lo).s1 ∧
    (nibNets64 (hi ++ lo)).s2 = (nibNets32 hi).s2 ++ (nibNets32 lo).s2 ∧
    (NibblesFit (w := 64) (hi ++ lo) →
      (byteNets64 (hi ++ lo)).s3 = (byteNets32 hi).s3 ++ (byteNets32 lo).s3) ∧
    (FieldsAtMost 8 8 hi → FieldsAtMost 8 8 lo →
      (sumNets64 (hi ++ lo)).count.toNat =
        (sumNets32 hi).count.toNat + (sumNets32 lo).count.toNat ∧
      (sumNets64 (hi ++ lo)).count.toNat ≤ 64) ∧
    (sumNets64 (hi ++ lo)).p.extractLsb' 0 32 = lo * 0x01010101#32 ∧
    (sumNets64 (hi ++ lo)).p.extractLsb' 0 32 = (sumNets32 lo).p

/-- R135: how the 64-bit stages act on a zero-extended 32-bit word. -/
def Obligations.StagesActOnZeroExtension : Prop :=
  ∀ x : Word32,
    (pairNets64 (x.setWidth 64)).s1 = (pairNets32 x).s1.setWidth 64 ∧
    (nibNets64 (x.setWidth 64)).s2 = (nibNets32 x).s2.setWidth 64 ∧
    (NibblesFit x → (byteNets64 (x.setWidth 64)).s3 = (byteNets32 x).s3.setWidth 64) ∧
    (FieldsAtMost 8 8 x →
      (sumNets64 (x.setWidth 64)).count = (sumNets32 x).count ∧
      (sumNets64 (x.setWidth 64)).p = (sumNets32 x).count ++ (sumNets32 x).count ++
        (sumNets32 x).count ++ (sumNets32 x).count ++ (sumNets32 x).p)

/-! ### The environment's contract -/

/-- R44, R48, R49, R50: from every state the evaluations the host makes for a buffer all complete, and
their results add up to the sum of the numbers of 1 bits of the buffer's bytes: the batched count is the
reference count, for buffers of every length. The host as a function with an unbounded sum is the model's
(log 12, DESIGN CHOICE). -/
def Obligations.BufferCountIsReferenceCount : Prop :=
  ∀ (bytes : List Byte) (s : State),
    ∃ t, countBuffer bytes s = some (t, (bytes.map popcnt).sum) ∧
      t.names = s.names ∧ t.script = s.script

/-- R45 to R48: which evaluations the host makes for a buffer of length L, in order: floor(L/8) POPCNT64,
then one POPCNT32 of a 4-byte word if L mod 8 is at least 4, then L mod 4 POPCNT32 of zero-extended single
bytes; evaluation q of the first kind takes bytes 8q to 8q+7, little-endian. The host as a function is the
model's (log 12, DESIGN CHOICE). -/
def Obligations.FeedShape : Prop :=
  ∀ bytes : List Byte, ∃ ws ts bs : List (Instr × Value), feed bytes = ws ++ ts ++ bs ∧
    ws.length = bytes.length / 8 ∧ ts.length = (if 4 ≤ bytes.length % 8 then 1 else 0) ∧
    bs.length = bytes.length % 4 ∧
    (∀ q < ws.length, ∃ x : Word64, ws[q]? = some (.popcnt64, .word64 x) ∧
      ∀ k < 8, bytes[8 * q + k]? = some (field x 8 k)) ∧
    (∀ e ∈ ts, ∃ x : Word32, e = (.popcnt32, .word32 x) ∧
      ∀ k < 4, bytes[8 * (bytes.length / 8) + k]? = some (field x 8 k)) ∧
    ∀ r < bs.length, ∃ c : Byte, bs[r]? = some (.popcnt32, .word32 (zext32 c)) ∧
      bytes[4 * (bytes.length / 4) + r]? = some c

/-- R50: linearity over concatenation, and the boundaries: 16 bytes 0xFF give 128, 32 give 256, none 0;
the total is at most 8 per byte. The host as a function with an unbounded sum is the model's (log 12,
DESIGN CHOICE). -/
def Obligations.BufferCountLinear : Prop :=
  (∀ (a b : List Byte) (s : State) (t u v : State) (m n k : Nat),
    countBuffer a s = some (t, m) → countBuffer b s = some (u, n) → countBuffer (a ++ b) s = some (v, k) →
    k = m + n) ∧
  (∀ (bytes : List Byte) (s t : State) (n : Nat), countBuffer bytes s = some (t, n) →
    n ≤ 8 * bytes.length) ∧
  ∀ s : State, (countBuffer [] s).map Prod.snd = some 0 ∧
    (countBuffer (List.replicate 16 0xFF) s).map Prod.snd = some 128 ∧
    (countBuffer (List.replicate 32 0xFF) s).map Prod.snd = some 256
end

