-- ==== Sys2Proof/Laws/Datapath.lean ====
section
/-! SUPPORT. The nets of each step and of the whole datapath, one equation per net, so that no proof
unfolds a step. (Cite these rather than rfl: comparing two records of nets by unfolding makes Lean
unfold the multiplication.) -/

namespace Sys2Proof.Machine

section Steps

variable {w : Nat} (m1 m2 m3 h x : BitVec w)

@[simp] theorem pairNets_v : (pairNets m1 x).v = x := rfl
@[simp] theorem pairNets_b1 : (pairNets m1 x).b1 = (x >>> 1) &&& m1 := rfl
@[simp] theorem pairNets_s1 : (pairNets m1 x).s1 = x - ((x >>> 1) &&& m1) := rfl
@[simp] theorem nibNets_s1 : (nibNets m2 x).s1 = x := rfl
@[simp] theorem nibNets_lo2 : (nibNets m2 x).lo2 = x &&& m2 := rfl
@[simp] theorem nibNets_hi2 : (nibNets m2 x).hi2 = (x >>> 2) &&& m2 := rfl
@[simp] theorem nibNets_s2 : (nibNets m2 x).s2 = (x &&& m2) + ((x >>> 2) &&& m2) := rfl
@[simp] theorem byteNets_s2 : (byteNets m3 x).s2 = x := rfl
@[simp] theorem byteNets_t3 : (byteNets m3 x).t3 = x + (x >>> 4) := rfl
@[simp] theorem byteNets_s3 : (byteNets m3 x).s3 = (x + (x >>> 4)) &&& m3 := rfl
@[simp] theorem sumNets_s3 : (sumNets h x).s3 = x := rfl
@[simp] theorem sumNets_p : (sumNets h x).p = x * h := BitVec.mul_comm h x
@[simp] theorem sumNets_count : (sumNets h x).count = ((x * h) >>> (w - 8)).setWidth 8 :=
  congrArg (fun p : BitVec w => (p >>> (w - 8)).setWidth 8) (BitVec.mul_comm h x)

@[simp] theorem wordNets_v : (wordNets m1 m2 m3 h x).v = x := rfl

/-- The whole datapath is the four steps, each on the result of the one before (R99). -/
theorem wordNets_eq : wordNets m1 m2 m3 h x =
    ⟨x, (pairNets m1 x).b1, (pairNets m1 x).s1,
      (nibNets m2 (pairNets m1 x).s1).lo2, (nibNets m2 (pairNets m1 x).s1).hi2,
      (nibNets m2 (pairNets m1 x).s1).s2,
      (byteNets m3 (nibNets m2 (pairNets m1 x).s1).s2).t3,
      (byteNets m3 (nibNets m2 (pairNets m1 x).s1).s2).s3,
      (sumNets h (byteNets m3 (nibNets m2 (pairNets m1 x).s1).s2).s3).p,
      (sumNets h (byteNets m3 (nibNets m2 (pairNets m1 x).s1).s2).s3).count⟩ := rfl

end Steps

@[simp] theorem wordNets32_v (x : Word32) : (wordNets32 x).v = x := rfl
@[simp] theorem pairNets32_v (x : Word32) : (pairNets32 x).v = x := rfl
@[simp] theorem nibNets32_s1 (x : Word32) : (nibNets32 x).s1 = x := rfl
@[simp] theorem byteNets32_s2 (x : Word32) : (byteNets32 x).s2 = x := rfl
@[simp] theorem sumNets32_s3 (x : Word32) : (sumNets32 x).s3 = x := rfl
@[simp] theorem wordNets64_v (x : Word64) : (wordNets64 x).v = x := rfl
@[simp] theorem pairNets64_v (x : Word64) : (pairNets64 x).v = x := rfl
@[simp] theorem nibNets64_s1 (x : Word64) : (nibNets64 x).s1 = x := rfl
@[simp] theorem byteNets64_s2 (x : Word64) : (byteNets64 x).s2 = x := rfl
@[simp] theorem sumNets64_s3 (x : Word64) : (sumNets64 x).s3 = x := rfl

end Sys2Proof.Machine
end

