-- ==== Sys2Proof/Laws/Lanes.lean ====
section
/-! SUPPORT. Words cut in two: how shifts under a mask, differences and sums act on `hi ++ lo` part by
part, and how fields and population counts read in it. Cutting a word into bytes with these leaves
claims about 8 bits, which decide settles. -/

namespace Sys2Proof.Machine

section Parts

variable {m n : Nat}

/-- A right shift of `hi ++ lo` under a mask that drops what would cross over acts on each part. -/
theorem shift_and_append (k : Nat) (hi mh : BitVec m) (lo ml : BitVec n)
    (h : ∀ i, n ≤ i + k → ml.getLsbD i = false) :
    ((hi ++ lo) >>> k) &&& (mh ++ ml) = ((hi >>> k) &&& mh) ++ ((lo >>> k) &&& ml) := by
  apply BitVec.eq_of_getLsbD_eq
  intro i _
  simp only [BitVec.getLsbD_and, BitVec.getLsbD_ushiftRight, BitVec.getLsbD_append]
  by_cases hi' : i < n
  · by_cases hk : k + i < n
    · simp [hi', hk]
    · simp only [h i (by omega), Bool.and_false, hi', if_true]
  · have : ¬ k + i < n := by omega
    have e : k + i - n = k + (i - n) := by omega
    simp [hi', this, e]

/-- The number `hi ++ lo` stands for. -/
theorem toNat_append_eq (hi : BitVec m) (lo : BitVec n) :
    (hi ++ lo).toNat = hi.toNat * 2 ^ n + lo.toNat := by
  rw [BitVec.toNat_append, ← Nat.shiftLeft_add_eq_or_of_lt lo.isLt, Nat.shiftLeft_eq]

/-- Where the low parts do not carry, a sum acts on each part. -/
theorem add_append (hi a : BitVec m) (lo b : BitVec n) (h : lo.toNat + b.toNat < 2 ^ n) :
    (hi ++ lo) + (a ++ b) = (hi + a) ++ (lo + b) := by
  apply BitVec.eq_of_toNat_eq
  rw [BitVec.toNat_add, toNat_append_eq, toNat_append_eq, toNat_append_eq, BitVec.toNat_add,
    BitVec.toNat_add, Nat.mod_eq_of_lt h, Nat.pow_add, Nat.mul_comm (2 ^ m)]
  have e : hi.toNat * 2 ^ n + lo.toNat + (a.toNat * 2 ^ n + b.toNat) =
      2 ^ n * (hi.toNat + a.toNat) + (lo.toNat + b.toNat) := by ring
  rw [e, Nat.mod_mul, Nat.mul_add_mod, Nat.mod_eq_of_lt h, Nat.mul_add_div (Nat.two_pow_pos n),
    Nat.div_eq_of_lt h, Nat.add_zero]
  ring

/-- Where the low parts do not borrow, a difference acts on each part. -/
theorem sub_append (hi a : BitVec m) (lo b : BitVec n) (h : b ≤ lo) :
    (hi ++ lo) - (a ++ b) = (hi - a) ++ (lo - b) := by
  have hb : (lo - b).toNat + b.toNat = lo.toNat := by
    rw [BitVec.toNat_sub_of_le h]; exact Nat.sub_add_cancel h
  have key : ((hi - a) ++ (lo - b)) + (a ++ b) = hi ++ lo := by
    rw [add_append _ _ _ _ (by rw [hb]; exact lo.isLt)]
    simp
  rw [← key]; simp

end Parts

/-- The low bits of `hi ++ lo` count what `lo` counts. -/
theorem popcntBelow_append_low {m n : Nat} (hi : BitVec m) (lo : BitVec n) {k : Nat} (h : k ≤ n) :
    popcntBelow (hi ++ lo) k = popcntBelow lo k := by
  induction k with
  | zero => rfl
  | succ k ih =>
    have hk : k < n := by omega
    simp [popcntBelow, bit, ih (by omega), BitVec.getLsbD_append, hk]

/-- Above them come those of `hi`. -/
theorem popcntBelow_append_high {m n : Nat} (hi : BitVec m) (lo : BitVec n) (k : Nat) :
    popcntBelow (hi ++ lo) (n + k) = popcnt lo + popcntBelow hi k := by
  induction k with
  | zero => exact popcntBelow_append_low hi lo le_rfl
  | succ k ih => simp [← Nat.add_assoc, popcntBelow, ih, bit, BitVec.getLsbD_append]

/-- The count of a word is the sum of the counts of its two parts. -/
theorem popcnt_append {m n : Nat} (hi : BitVec m) (lo : BitVec n) :
    popcnt (hi ++ lo) = popcnt hi + popcnt lo := by
  have h := popcntBelow_append_high hi lo m
  rw [Nat.add_comm n m] at h
  rw [popcnt, h, Nat.add_comm]
  rfl

/-- Step 1 acts on each part of a word, the low part being whole pairs (R123). -/
theorem pairNets_append {m n : Nat} (mh hi : BitVec m) (ml lo : BitVec n)
    (h : ∀ i, n ≤ i + 1 → ml.getLsbD i = false) (hb : (lo >>> 1) &&& ml ≤ lo) :
    (pairNets (mh ++ ml) (hi ++ lo)).s1 = (pairNets mh hi).s1 ++ (pairNets ml lo).s1 := by
  simp only [pairNets_s1, shift_and_append 1 hi mh lo ml h]
  exact sub_append _ _ _ _ hb

/-- Step 2 acts on each part of a word, the low part being whole nibbles (R124). -/
theorem nibNets_append {m n : Nat} (mh hi : BitVec m) (ml lo : BitVec n)
    (h : ∀ i, n ≤ i + 2 → ml.getLsbD i = false)
    (hc : (lo &&& ml).toNat + ((lo >>> 2) &&& ml).toNat < 2 ^ n) :
    (nibNets (mh ++ ml) (hi ++ lo)).s2 = (nibNets mh hi).s2 ++ (nibNets ml lo).s2 := by
  simp only [nibNets_s2, shift_and_append 2 hi mh lo ml h, BitVec.and_append]
  exact add_append _ _ _ _ hc

end Sys2Proof.Machine
end

