-- ==== Sys2Proof/Laws/State.lean ====
section
/-! SUPPORT. What each named update of State does to each field, and to the operand and result of each
instance: one lemma per field per update, so that no proof unfolds a record update. -/

namespace Sys2Proof.Machine

section setPopcnt32

variable (n : WordNets 32) (s : State)

@[simp] theorem State.setPopcnt32_popcnt32 : (s.setPopcnt32 n).popcnt32 = n := rfl
@[simp] theorem State.setPopcnt32_pairsum32 : (s.setPopcnt32 n).pairsum32 = s.pairsum32 := rfl
@[simp] theorem State.setPopcnt32_nibsum32 : (s.setPopcnt32 n).nibsum32 = s.nibsum32 := rfl
@[simp] theorem State.setPopcnt32_bytesum32 : (s.setPopcnt32 n).bytesum32 = s.bytesum32 := rfl
@[simp] theorem State.setPopcnt32_hsum32 : (s.setPopcnt32 n).hsum32 = s.hsum32 := rfl
@[simp] theorem State.setPopcnt32_popcnt64 : (s.setPopcnt32 n).popcnt64 = s.popcnt64 := rfl
@[simp] theorem State.setPopcnt32_pairsum64 : (s.setPopcnt32 n).pairsum64 = s.pairsum64 := rfl
@[simp] theorem State.setPopcnt32_nibsum64 : (s.setPopcnt32 n).nibsum64 = s.nibsum64 := rfl
@[simp] theorem State.setPopcnt32_bytesum64 : (s.setPopcnt32 n).bytesum64 = s.bytesum64 := rfl
@[simp] theorem State.setPopcnt32_hsum64 : (s.setPopcnt32 n).hsum64 = s.hsum64 := rfl
@[simp] theorem State.setPopcnt32_names : (s.setPopcnt32 n).names = s.names := rfl
@[simp] theorem State.setPopcnt32_script : (s.setPopcnt32 n).script = s.script := rfl

end setPopcnt32

section setPairsum32

variable (n : PairNets 32) (s : State)

@[simp] theorem State.setPairsum32_popcnt32 : (s.setPairsum32 n).popcnt32 = s.popcnt32 := rfl
@[simp] theorem State.setPairsum32_pairsum32 : (s.setPairsum32 n).pairsum32 = n := rfl
@[simp] theorem State.setPairsum32_nibsum32 : (s.setPairsum32 n).nibsum32 = s.nibsum32 := rfl
@[simp] theorem State.setPairsum32_bytesum32 : (s.setPairsum32 n).bytesum32 = s.bytesum32 := rfl
@[simp] theorem State.setPairsum32_hsum32 : (s.setPairsum32 n).hsum32 = s.hsum32 := rfl
@[simp] theorem State.setPairsum32_popcnt64 : (s.setPairsum32 n).popcnt64 = s.popcnt64 := rfl
@[simp] theorem State.setPairsum32_pairsum64 : (s.setPairsum32 n).pairsum64 = s.pairsum64 := rfl
@[simp] theorem State.setPairsum32_nibsum64 : (s.setPairsum32 n).nibsum64 = s.nibsum64 := rfl
@[simp] theorem State.setPairsum32_bytesum64 : (s.setPairsum32 n).bytesum64 = s.bytesum64 := rfl
@[simp] theorem State.setPairsum32_hsum64 : (s.setPairsum32 n).hsum64 = s.hsum64 := rfl
@[simp] theorem State.setPairsum32_names : (s.setPairsum32 n).names = s.names := rfl
@[simp] theorem State.setPairsum32_script : (s.setPairsum32 n).script = s.script := rfl

end setPairsum32

section setNibsum32

variable (n : NibNets 32) (s : State)

@[simp] theorem State.setNibsum32_popcnt32 : (s.setNibsum32 n).popcnt32 = s.popcnt32 := rfl
@[simp] theorem State.setNibsum32_pairsum32 : (s.setNibsum32 n).pairsum32 = s.pairsum32 := rfl
@[simp] theorem State.setNibsum32_nibsum32 : (s.setNibsum32 n).nibsum32 = n := rfl
@[simp] theorem State.setNibsum32_bytesum32 : (s.setNibsum32 n).bytesum32 = s.bytesum32 := rfl
@[simp] theorem State.setNibsum32_hsum32 : (s.setNibsum32 n).hsum32 = s.hsum32 := rfl
@[simp] theorem State.setNibsum32_popcnt64 : (s.setNibsum32 n).popcnt64 = s.popcnt64 := rfl
@[simp] theorem State.setNibsum32_pairsum64 : (s.setNibsum32 n).pairsum64 = s.pairsum64 := rfl
@[simp] theorem State.setNibsum32_nibsum64 : (s.setNibsum32 n).nibsum64 = s.nibsum64 := rfl
@[simp] theorem State.setNibsum32_bytesum64 : (s.setNibsum32 n).bytesum64 = s.bytesum64 := rfl
@[simp] theorem State.setNibsum32_hsum64 : (s.setNibsum32 n).hsum64 = s.hsum64 := rfl
@[simp] theorem State.setNibsum32_names : (s.setNibsum32 n).names = s.names := rfl
@[simp] theorem State.setNibsum32_script : (s.setNibsum32 n).script = s.script := rfl

end setNibsum32

section setBytesum32

variable (n : ByteNets 32) (s : State)

@[simp] theorem State.setBytesum32_popcnt32 : (s.setBytesum32 n).popcnt32 = s.popcnt32 := rfl
@[simp] theorem State.setBytesum32_pairsum32 : (s.setBytesum32 n).pairsum32 = s.pairsum32 := rfl
@[simp] theorem State.setBytesum32_nibsum32 : (s.setBytesum32 n).nibsum32 = s.nibsum32 := rfl
@[simp] theorem State.setBytesum32_bytesum32 : (s.setBytesum32 n).bytesum32 = n := rfl
@[simp] theorem State.setBytesum32_hsum32 : (s.setBytesum32 n).hsum32 = s.hsum32 := rfl
@[simp] theorem State.setBytesum32_popcnt64 : (s.setBytesum32 n).popcnt64 = s.popcnt64 := rfl
@[simp] theorem State.setBytesum32_pairsum64 : (s.setBytesum32 n).pairsum64 = s.pairsum64 := rfl
@[simp] theorem State.setBytesum32_nibsum64 : (s.setBytesum32 n).nibsum64 = s.nibsum64 := rfl
@[simp] theorem State.setBytesum32_bytesum64 : (s.setBytesum32 n).bytesum64 = s.bytesum64 := rfl
@[simp] theorem State.setBytesum32_hsum64 : (s.setBytesum32 n).hsum64 = s.hsum64 := rfl
@[simp] theorem State.setBytesum32_names : (s.setBytesum32 n).names = s.names := rfl
@[simp] theorem State.setBytesum32_script : (s.setBytesum32 n).script = s.script := rfl

end setBytesum32

section setHsum32

variable (n : SumNets 32) (s : State)

@[simp] theorem State.setHsum32_popcnt32 : (s.setHsum32 n).popcnt32 = s.popcnt32 := rfl
@[simp] theorem State.setHsum32_pairsum32 : (s.setHsum32 n).pairsum32 = s.pairsum32 := rfl
@[simp] theorem State.setHsum32_nibsum32 : (s.setHsum32 n).nibsum32 = s.nibsum32 := rfl
@[simp] theorem State.setHsum32_bytesum32 : (s.setHsum32 n).bytesum32 = s.bytesum32 := rfl
@[simp] theorem State.setHsum32_hsum32 : (s.setHsum32 n).hsum32 = n := rfl
@[simp] theorem State.setHsum32_popcnt64 : (s.setHsum32 n).popcnt64 = s.popcnt64 := rfl
@[simp] theorem State.setHsum32_pairsum64 : (s.setHsum32 n).pairsum64 = s.pairsum64 := rfl
@[simp] theorem State.setHsum32_nibsum64 : (s.setHsum32 n).nibsum64 = s.nibsum64 := rfl
@[simp] theorem State.setHsum32_bytesum64 : (s.setHsum32 n).bytesum64 = s.bytesum64 := rfl
@[simp] theorem State.setHsum32_hsum64 : (s.setHsum32 n).hsum64 = s.hsum64 := rfl
@[simp] theorem State.setHsum32_names : (s.setHsum32 n).names = s.names := rfl
@[simp] theorem State.setHsum32_script : (s.setHsum32 n).script = s.script := rfl

end setHsum32

section setPopcnt64

variable (n : WordNets 64) (s : State)

@[simp] theorem State.setPopcnt64_popcnt32 : (s.setPopcnt64 n).popcnt32 = s.popcnt32 := rfl
@[simp] theorem State.setPopcnt64_pairsum32 : (s.setPopcnt64 n).pairsum32 = s.pairsum32 := rfl
@[simp] theorem State.setPopcnt64_nibsum32 : (s.setPopcnt64 n).nibsum32 = s.nibsum32 := rfl
@[simp] theorem State.setPopcnt64_bytesum32 : (s.setPopcnt64 n).bytesum32 = s.bytesum32 := rfl
@[simp] theorem State.setPopcnt64_hsum32 : (s.setPopcnt64 n).hsum32 = s.hsum32 := rfl
@[simp] theorem State.setPopcnt64_popcnt64 : (s.setPopcnt64 n).popcnt64 = n := rfl
@[simp] theorem State.setPopcnt64_pairsum64 : (s.setPopcnt64 n).pairsum64 = s.pairsum64 := rfl
@[simp] theorem State.setPopcnt64_nibsum64 : (s.setPopcnt64 n).nibsum64 = s.nibsum64 := rfl
@[simp] theorem State.setPopcnt64_bytesum64 : (s.setPopcnt64 n).bytesum64 = s.bytesum64 := rfl
@[simp] theorem State.setPopcnt64_hsum64 : (s.setPopcnt64 n).hsum64 = s.hsum64 := rfl
@[simp] theorem State.setPopcnt64_names : (s.setPopcnt64 n).names = s.names := rfl
@[simp] theorem State.setPopcnt64_script : (s.setPopcnt64 n).script = s.script := rfl

end setPopcnt64

section setPairsum64

variable (n : PairNets 64) (s : State)

@[simp] theorem State.setPairsum64_popcnt32 : (s.setPairsum64 n).popcnt32 = s.popcnt32 := rfl
@[simp] theorem State.setPairsum64_pairsum32 : (s.setPairsum64 n).pairsum32 = s.pairsum32 := rfl
@[simp] theorem State.setPairsum64_nibsum32 : (s.setPairsum64 n).nibsum32 = s.nibsum32 := rfl
@[simp] theorem State.setPairsum64_bytesum32 : (s.setPairsum64 n).bytesum32 = s.bytesum32 := rfl
@[simp] theorem State.setPairsum64_hsum32 : (s.setPairsum64 n).hsum32 = s.hsum32 := rfl
@[simp] theorem State.setPairsum64_popcnt64 : (s.setPairsum64 n).popcnt64 = s.popcnt64 := rfl
@[simp] theorem State.setPairsum64_pairsum64 : (s.setPairsum64 n).pairsum64 = n := rfl
@[simp] theorem State.setPairsum64_nibsum64 : (s.setPairsum64 n).nibsum64 = s.nibsum64 := rfl
@[simp] theorem State.setPairsum64_bytesum64 : (s.setPairsum64 n).bytesum64 = s.bytesum64 := rfl
@[simp] theorem State.setPairsum64_hsum64 : (s.setPairsum64 n).hsum64 = s.hsum64 := rfl
@[simp] theorem State.setPairsum64_names : (s.setPairsum64 n).names = s.names := rfl
@[simp] theorem State.setPairsum64_script : (s.setPairsum64 n).script = s.script := rfl

end setPairsum64

section setNibsum64

variable (n : NibNets 64) (s : State)

@[simp] theorem State.setNibsum64_popcnt32 : (s.setNibsum64 n).popcnt32 = s.popcnt32 := rfl
@[simp] theorem State.setNibsum64_pairsum32 : (s.setNibsum64 n).pairsum32 = s.pairsum32 := rfl
@[simp] theorem State.setNibsum64_nibsum32 : (s.setNibsum64 n).nibsum32 = s.nibsum32 := rfl
@[simp] theorem State.setNibsum64_bytesum32 : (s.setNibsum64 n).bytesum32 = s.bytesum32 := rfl
@[simp] theorem State.setNibsum64_hsum32 : (s.setNibsum64 n).hsum32 = s.hsum32 := rfl
@[simp] theorem State.setNibsum64_popcnt64 : (s.setNibsum64 n).popcnt64 = s.popcnt64 := rfl
@[simp] theorem State.setNibsum64_pairsum64 : (s.setNibsum64 n).pairsum64 = s.pairsum64 := rfl
@[simp] theorem State.setNibsum64_nibsum64 : (s.setNibsum64 n).nibsum64 = n := rfl
@[simp] theorem State.setNibsum64_bytesum64 : (s.setNibsum64 n).bytesum64 = s.bytesum64 := rfl
@[simp] theorem State.setNibsum64_hsum64 : (s.setNibsum64 n).hsum64 = s.hsum64 := rfl
@[simp] theorem State.setNibsum64_names : (s.setNibsum64 n).names = s.names := rfl
@[simp] theorem State.setNibsum64_script : (s.setNibsum64 n).script = s.script := rfl

end setNibsum64

section setBytesum64

variable (n : ByteNets 64) (s : State)

@[simp] theorem State.setBytesum64_popcnt32 : (s.setBytesum64 n).popcnt32 = s.popcnt32 := rfl
@[simp] theorem State.setBytesum64_pairsum32 : (s.setBytesum64 n).pairsum32 = s.pairsum32 := rfl
@[simp] theorem State.setBytesum64_nibsum32 : (s.setBytesum64 n).nibsum32 = s.nibsum32 := rfl
@[simp] theorem State.setBytesum64_bytesum32 : (s.setBytesum64 n).bytesum32 = s.bytesum32 := rfl
@[simp] theorem State.setBytesum64_hsum32 : (s.setBytesum64 n).hsum32 = s.hsum32 := rfl
@[simp] theorem State.setBytesum64_popcnt64 : (s.setBytesum64 n).popcnt64 = s.popcnt64 := rfl
@[simp] theorem State.setBytesum64_pairsum64 : (s.setBytesum64 n).pairsum64 = s.pairsum64 := rfl
@[simp] theorem State.setBytesum64_nibsum64 : (s.setBytesum64 n).nibsum64 = s.nibsum64 := rfl
@[simp] theorem State.setBytesum64_bytesum64 : (s.setBytesum64 n).bytesum64 = n := rfl
@[simp] theorem State.setBytesum64_hsum64 : (s.setBytesum64 n).hsum64 = s.hsum64 := rfl
@[simp] theorem State.setBytesum64_names : (s.setBytesum64 n).names = s.names := rfl
@[simp] theorem State.setBytesum64_script : (s.setBytesum64 n).script = s.script := rfl

end setBytesum64

section setHsum64

variable (n : SumNets 64) (s : State)

@[simp] theorem State.setHsum64_popcnt32 : (s.setHsum64 n).popcnt32 = s.popcnt32 := rfl
@[simp] theorem State.setHsum64_pairsum32 : (s.setHsum64 n).pairsum32 = s.pairsum32 := rfl
@[simp] theorem State.setHsum64_nibsum32 : (s.setHsum64 n).nibsum32 = s.nibsum32 := rfl
@[simp] theorem State.setHsum64_bytesum32 : (s.setHsum64 n).bytesum32 = s.bytesum32 := rfl
@[simp] theorem State.setHsum64_hsum32 : (s.setHsum64 n).hsum32 = s.hsum32 := rfl
@[simp] theorem State.setHsum64_popcnt64 : (s.setHsum64 n).popcnt64 = s.popcnt64 := rfl
@[simp] theorem State.setHsum64_pairsum64 : (s.setHsum64 n).pairsum64 = s.pairsum64 := rfl
@[simp] theorem State.setHsum64_nibsum64 : (s.setHsum64 n).nibsum64 = s.nibsum64 := rfl
@[simp] theorem State.setHsum64_bytesum64 : (s.setHsum64 n).bytesum64 = s.bytesum64 := rfl
@[simp] theorem State.setHsum64_hsum64 : (s.setHsum64 n).hsum64 = n := rfl
@[simp] theorem State.setHsum64_names : (s.setHsum64 n).names = s.names := rfl
@[simp] theorem State.setHsum64_script : (s.setHsum64 n).script = s.script := rfl

end setHsum64

section bindName

variable (n : Nat) (x : Value) (s : State)

@[simp] theorem State.bindName_popcnt32 : (s.bindName n x).popcnt32 = s.popcnt32 := rfl
@[simp] theorem State.bindName_pairsum32 : (s.bindName n x).pairsum32 = s.pairsum32 := rfl
@[simp] theorem State.bindName_nibsum32 : (s.bindName n x).nibsum32 = s.nibsum32 := rfl
@[simp] theorem State.bindName_bytesum32 : (s.bindName n x).bytesum32 = s.bytesum32 := rfl
@[simp] theorem State.bindName_hsum32 : (s.bindName n x).hsum32 = s.hsum32 := rfl
@[simp] theorem State.bindName_popcnt64 : (s.bindName n x).popcnt64 = s.popcnt64 := rfl
@[simp] theorem State.bindName_pairsum64 : (s.bindName n x).pairsum64 = s.pairsum64 := rfl
@[simp] theorem State.bindName_nibsum64 : (s.bindName n x).nibsum64 = s.nibsum64 := rfl
@[simp] theorem State.bindName_bytesum64 : (s.bindName n x).bytesum64 = s.bytesum64 := rfl
@[simp] theorem State.bindName_hsum64 : (s.bindName n x).hsum64 = s.hsum64 := rfl
@[simp] theorem State.bindName_names : (s.bindName n x).names = (n, x) :: s.names := rfl
@[simp] theorem State.bindName_script : (s.bindName n x).script = s.script := rfl

end bindName

section setScript

variable (ls : List Line) (s : State)

@[simp] theorem State.setScript_popcnt32 : (s.setScript ls).popcnt32 = s.popcnt32 := rfl
@[simp] theorem State.setScript_pairsum32 : (s.setScript ls).pairsum32 = s.pairsum32 := rfl
@[simp] theorem State.setScript_nibsum32 : (s.setScript ls).nibsum32 = s.nibsum32 := rfl
@[simp] theorem State.setScript_bytesum32 : (s.setScript ls).bytesum32 = s.bytesum32 := rfl
@[simp] theorem State.setScript_hsum32 : (s.setScript ls).hsum32 = s.hsum32 := rfl
@[simp] theorem State.setScript_popcnt64 : (s.setScript ls).popcnt64 = s.popcnt64 := rfl
@[simp] theorem State.setScript_pairsum64 : (s.setScript ls).pairsum64 = s.pairsum64 := rfl
@[simp] theorem State.setScript_nibsum64 : (s.setScript ls).nibsum64 = s.nibsum64 := rfl
@[simp] theorem State.setScript_bytesum64 : (s.setScript ls).bytesum64 = s.bytesum64 := rfl
@[simp] theorem State.setScript_hsum64 : (s.setScript ls).hsum64 = s.hsum64 := rfl
@[simp] theorem State.setScript_names : (s.setScript ls).names = s.names := rfl
@[simp] theorem State.setScript_script : (s.setScript ls).script = ls := rfl

end setScript

@[simp] theorem State.operand_bindName (i : Instr) (n : Nat) (x : Value) (s : State) :
    (s.bindName n x).operand i = s.operand i := by cases i <;> rfl

@[simp] theorem State.result_bindName (i : Instr) (n : Nat) (x : Value) (s : State) :
    (s.bindName n x).result i = s.result i := by cases i <;> rfl

@[simp] theorem State.operand_setScript (i : Instr) (ls : List Line) (s : State) :
    (s.setScript ls).operand i = s.operand i := by cases i <;> rfl

@[simp] theorem State.result_setScript (i : Instr) (ls : List Line) (s : State) :
    (s.setScript ls).result i = s.result i := by cases i <;> rfl

end Sys2Proof.Machine
end

