-- ==== Sys2Proof/Laws/Ops.lean ====
section
/-! SUPPORT. One lemma per shared operation, saying once what it can do, for proofs to cite in place of
unfolding it. -/

namespace Sys2Proof.Machine

/-! Reading a value at a width. -/

theorem Value.asByte_ok_iff {x : Value} {b : Byte} : x.asByte = .ok b ↔ x = .byte b := by
  cases x <;> simp [Value.asByte]

theorem Value.asWord32_ok_iff {x : Value} {v : Word32} : x.asWord32 = .ok v ↔ x = .word32 v := by
  cases x <;> simp [Value.asWord32]

theorem Value.asWord64_ok_iff {x : Value} {v : Word64} : x.asWord64 = .ok v ↔ x = .word64 v := by
  cases x <;> simp [Value.asWord64]

/-! Driving an input. -/

/-- An operand of the right width is driven, and then stands on the input; the host's names and script
stay as they are. -/
theorem State.drive_of_ty {i : Instr} {x : Value} (s : State) (h : x.ty = operandTy i) :
    ∃ d, s.drive i x = .ok d ∧ d.operand i = x ∧ d.names = s.names ∧ d.script = s.script := by
  cases i <;> cases x <;> cases h <;> exact ⟨_, rfl, rfl, rfl, rfl⟩

/-- An operand of the wrong width is refused, by name (R77). -/
theorem State.drive_of_ty_ne {i : Instr} {x : Value} (s : State) (h : x.ty ≠ operandTy i) :
    s.drive i x = .error (.widthMismatch (operandTy i) x.ty) := by
  cases i <;> cases x <;> first | exact absurd rfl h | rfl

/-- Driving what already stands on the input changes nothing. -/
@[simp] theorem State.drive_operand (i : Instr) (s : State) : s.drive i (s.operand i) = .ok s := by
  cases i <;> rfl

/-- What stands on an input has the width of the operation's operand (R73). -/
@[simp] theorem State.operand_ty (i : Instr) (s : State) : (s.operand i).ty = operandTy i := by
  cases i <;> rfl

/-- What the host reads has the width of the operation's result (R73). -/
@[simp] theorem State.result_ty (i : Instr) (s : State) : (s.result i).ty = resultTy i := by
  cases i <;> rfl

/-- Driving one input leaves every other operation's input and result alone. -/
theorem State.drive_other {i j : Instr} {x : Value} {s d : State} (h : s.drive i x = .ok d)
    (hj : j ≠ i) : d.operand j = s.operand j ∧ d.result j = s.result j := by
  by_cases hx : x.ty = operandTy i
  · cases i <;> cases x <;> cases hx <;> cases h <;> cases j <;>
      first | exact absurd rfl hj | exact ⟨rfl, rfl⟩
  · rw [State.drive_of_ty_ne s hx] at h; cases h

/-! Evaluating an instance: the state each operation answers. -/

@[simp] theorem exec_popcnt32 (s : State) :
    exec .popcnt32 s = .next (s.setPopcnt32 (wordNets32 s.popcnt32.v)) := rfl
@[simp] theorem exec_pairsum32 (s : State) :
    exec .pairsum32 s = .next (s.setPairsum32 (pairNets32 s.pairsum32.v)) := rfl
@[simp] theorem exec_nibsum32 (s : State) :
    exec .nibsum32 s = .next (s.setNibsum32 (nibNets32 s.nibsum32.s1)) := rfl
@[simp] theorem exec_bytesum32 (s : State) :
    exec .bytesum32 s = .next (s.setBytesum32 (byteNets32 s.bytesum32.s2)) := rfl
@[simp] theorem exec_hsum32 (s : State) :
    exec .hsum32 s = .next (s.setHsum32 (sumNets32 s.hsum32.s3)) := rfl
@[simp] theorem exec_popcnt64 (s : State) :
    exec .popcnt64 s = .next (s.setPopcnt64 (wordNets64 s.popcnt64.v)) := rfl
@[simp] theorem exec_pairsum64 (s : State) :
    exec .pairsum64 s = .next (s.setPairsum64 (pairNets64 s.pairsum64.v)) := rfl
@[simp] theorem exec_nibsum64 (s : State) :
    exec .nibsum64 s = .next (s.setNibsum64 (nibNets64 s.nibsum64.s1)) := rfl
@[simp] theorem exec_bytesum64 (s : State) :
    exec .bytesum64 s = .next (s.setBytesum64 (byteNets64 s.bytesum64.s2)) := rfl
@[simp] theorem exec_hsum64 (s : State) :
    exec .hsum64 s = .next (s.setHsum64 (sumNets64 s.hsum64.s3)) := rfl

/-- Every operation answers a next state, in which its operand, the host's names and the script are as
they were. -/
theorem exec_answers (i : Instr) (s : State) :
    ∃ t, exec i s = .next t ∧ t.operand i = s.operand i ∧ t.names = s.names ∧ t.script = s.script := by
  cases i <;> simp [State.operand]

/-- An operation leaves every other operation's input and result alone. -/
theorem exec_other {i j : Instr} {s t : State} (h : exec i s = .next t) (hj : j ≠ i) :
    t.operand j = s.operand j ∧ t.result j = s.result j := by
  cases i <;> simp only [exec_popcnt32, exec_pairsum32, exec_nibsum32, exec_bytesum32, exec_hsum32,
    exec_popcnt64, exec_pairsum64, exec_nibsum64, exec_bytesum64, exec_hsum64,
    Host.Outcome.next.injEq] at h <;> subst h <;> cases j <;>
    first | exact absurd rfl hj | simp [State.operand, State.result]

/-- An evaluation that answers a next state drove its operand and ran the operation. -/
theorem evaluate_next_iff {i : Instr} {x : Value} {s t : State} :
    evaluate i x s = .next t ↔ ∃ d, s.drive i x = .ok d ∧ exec i d = .next t := by
  unfold evaluate
  cases h : s.drive i x <;> simp

/-! Names and sources. -/

theorem freshName_ok_iff {n : Nat} {s : State} : freshName n s = .ok () ↔ s.names.lookup n = none := by
  unfold freshName
  cases h : s.names.lookup n <;> simp

/-- A source is read as its literal, or as what its name is bound to (R77). -/
theorem Src.read_ok_iff {a : Src} {s : State} {x : Value} :
    a.read s = .ok x ↔ a = .lit x ∨ ∃ n, a = .name n ∧ s.names.lookup n = some x := by
  cases a with
  | lit y => simp [Src.read]
  | name n => cases h : s.names.lookup n <;> simp [Src.read, h]

@[simp] theorem Src.read_setScript (a : Src) (ls : List Line) (s : State) :
    a.read (s.setScript ls) = a.read s := by cases a <;> rfl

/-- The number `freeName` gives is above every bound name. -/
theorem lt_freeName {ns : List (Nat × Value)} {n : Nat} {x : Value} (h : (n, x) ∈ ns) :
    n < freeName ns := by
  induction ns with
  | nil => cases h
  | cons b ns ih =>
    cases h with
    | head => exact lt_of_lt_of_le (Nat.lt_succ_self _) (le_max_left _ _)
    | tail _ h => exact lt_of_lt_of_le (ih h) (le_max_right _ _)

/-! Running a line. -/

/-- What an operation line gives when it is not refused (R73, R77, R78). -/
theorem fetchOp_ok_iff {dst : Nat} {code : Opid} {src : Src} {s : State} {i : Instr} {x : Value} :
    fetchOp dst code src s = .ok (i, x) ↔
      decode code = .ok i ∧ s.names.lookup dst = none ∧ src.read s = .ok x := by
  unfold fetchOp
  cases hd : decode code with
  | error r => cases r; simp
  | ok j =>
    cases hn : s.names.lookup dst with
    | some y => simp [freshName, hn, bind, Except.bind]
    | none =>
      cases hr : src.read s with
      | error r => simp [freshName, hn, bind, Except.bind]
      | ok y => simp [freshName, hn, bind, Except.bind, pure, Except.pure]

/-- An operation line that answers a next state fetched an operation and its operand, evaluated it and
bound the result. -/
theorem runOpLine_next_iff {dst : Nat} {code : Opid} {src : Src} {s t : State} :
    runOpLine dst code src s = .next t ↔
      ∃ i x u, fetchOp dst code src s = .ok (i, x) ∧ evaluate i x s = .next u ∧
        t = u.bindName dst (u.result i) := by
  unfold runOpLine
  cases hf : fetchOp dst code src s with
  | error r => simp
  | ok ix =>
    obtain ⟨i, x⟩ := ix
    cases he : evaluate i x s with
    | next u => simp [he, eq_comm]
    | fault f => cases f
    | refused r => simp [he]

/-- A host line that answers a next state bound a free name to the value the host made. -/
theorem runHostLine_next_iff {dst : Nat} {value : State → Except Refusal Value} {s t : State} :
    runHostLine dst value s = .next t ↔
      ∃ x, s.names.lookup dst = none ∧ value s = .ok x ∧ t = s.bindName dst x := by
  unfold runHostLine freshName
  cases hn : s.names.lookup dst with
  | some y => simp
  | none => cases hv : value s <;> simp [eq_comm]

/-- All a step can do: nothing where nothing is asked for, or the next line of the script. -/
theorem step_cases (s : State) :
    (s.script = [] ∧ step s = .next s) ∨
      ∃ l ls, s.script = l :: ls ∧ step s = runLine l (s.setScript ls) := by
  unfold step stepScript
  cases h : s.script with
  | nil => exact .inl ⟨rfl, rfl⟩
  | cons l ls => exact .inr ⟨l, ls, rfl, rfl⟩

end Sys2Proof.Machine
end

