-- ==== Sys2Proof/Laws/PerInstr.lean ====
section
/-! SUPPORT. What holds of each operation as syntax (spec/30_encoding.md R72, R73): its identifier decodes
to it and to nothing else, and the identifier's `w` field is the width of its operand. -/

namespace Sys2Proof.Laws.Identifier

/-- The identifier of `i` names `i` and no other operation, and its bit 3 tells the operand's width. -/
def Statement (i : Instr) : Prop :=
  decode (encode i) = .ok i ∧ (∀ c, decode c = .ok i → c = encode i) ∧
    (opidW (encode i) = true ↔ Sys2Proof.Machine.operandTy i = .word64)

theorem popcnt32 : Statement .popcnt32 := ⟨rfl, by decide +revert, by decide⟩
theorem pairsum32 : Statement .pairsum32 := ⟨rfl, by decide +revert, by decide⟩
theorem nibsum32 : Statement .nibsum32 := ⟨rfl, by decide +revert, by decide⟩
theorem bytesum32 : Statement .bytesum32 := ⟨rfl, by decide +revert, by decide⟩
theorem hsum32 : Statement .hsum32 := ⟨rfl, by decide +revert, by decide⟩
theorem popcnt64 : Statement .popcnt64 := ⟨rfl, by decide +revert, by decide⟩
theorem pairsum64 : Statement .pairsum64 := ⟨rfl, by decide +revert, by decide⟩
theorem nibsum64 : Statement .nibsum64 := ⟨rfl, by decide +revert, by decide⟩
theorem bytesum64 : Statement .bytesum64 := ⟨rfl, by decide +revert, by decide⟩
theorem hsum64 : Statement .hsum64 := ⟨rfl, by decide +revert, by decide⟩

end Sys2Proof.Laws.Identifier
end

