-- ==== Sys2Proof/Laws/Scripts.lean ====
section
/-! SUPPORT. An evaluation against the other instances (spec/60_exceptions.md R148), and the
well-formedness check against the machine: what the check says of a source or a name is what reading it
finds (spec/30_encoding.md R77, R78). -/

namespace Sys2Proof.Machine

/-- Driving one input leaves every port and net of every other instance alone. -/
theorem State.drive_netsOf_other {i j : Instr} {x : Value} {s d : State} (h : s.drive i x = .ok d)
    (hj : j ≠ i) : d.netsOf j = s.netsOf j := by
  by_cases hx : x.ty = operandTy i
  · cases i <;> cases x <;> cases hx <;> cases h <;> cases j <;>
      first | exact absurd rfl hj | rfl
  · rw [State.drive_of_ty_ne s hx] at h; cases h

/-- An operation leaves every port and net of every other instance alone. -/
theorem exec_netsOf_other {i j : Instr} {s t : State} (h : exec i s = .next t) (hj : j ≠ i) :
    t.netsOf j = s.netsOf j := by
  cases i <;> cases h <;> cases j <;> first | exact absurd rfl hj | rfl

/-- An evaluation leaves every port and net of every other instance alone. -/
theorem evaluate_netsOf_other {i j : Instr} {x : Value} {s t : State} (h : evaluate i x s = .next t)
    (hj : j ≠ i) : t.netsOf j = s.netsOf j := by
  obtain ⟨d, hd, he⟩ := evaluate_next_iff.1 h
  exact (exec_netsOf_other he hj).trans (State.drive_netsOf_other hd hj)

/-- An evaluation on an operand of the right width, taken apart: driven, run, the operand held, the
host's names and script as they were. -/
theorem evaluate_of_ty {i : Instr} {x : Value} (s : State) (h : x.ty = operandTy i) :
    ∃ d t, s.drive i x = .ok d ∧ d.operand i = x ∧ exec i d = .next t ∧ evaluate i x s = .next t ∧
      t.operand i = x ∧ t.names = s.names ∧ t.script = s.script := by
  obtain ⟨d, hd, ho, hn, hs⟩ := State.drive_of_ty s h
  obtain ⟨t, ht, h1, h2, h3⟩ := exec_answers i d
  exact ⟨d, t, hd, ho, ht, evaluate_next_iff.2 ⟨d, hd, ht⟩, h1.trans ho, h2.trans hn, h3.trans hs⟩

/-- The kind the check knows for a name is the kind of the value it is bound to. -/
theorem State.types_lookup (s : State) (n : Nat) :
    s.types.lookup n = (s.names.lookup n).map Value.ty := by
  unfold State.types
  induction s.names with
  | nil => rfl
  | cons b ns ih =>
    by_cases h : n = b.1
    · subst h
      simp [List.lookup]
    · simp [List.lookup, beq_false_of_ne h, ih]

/-- A name is free for the check exactly when nothing is bound to it. -/
theorem nameFree_iff {s : State} {n : Nat} : nameFree s.types n = true ↔ s.names.lookup n = none := by
  rw [nameFree, State.types_lookup]
  cases s.names.lookup n <;> simp

/-- The kind the check knows for a source is the kind of the value read from it. -/
theorem Src.ty?_eq_some_iff {a : Src} {s : State} {t : Ty} :
    a.ty? s.types = some t ↔ ∃ x, a.read s = .ok x ∧ x.ty = t := by
  cases a with
  | lit x => simp [Src.ty?, Src.read]
  | name n =>
    rw [Src.ty?, State.types_lookup, Src.read]
    cases s.names.lookup n <;> simp

/-- A source has a kind for the check exactly when a value of that kind is read from it. -/
theorem Src.has_iff {a : Src} {s : State} {t : Ty} :
    a.has s.types t = true ↔ ∃ x, a.read s = .ok x ∧ x.ty = t := by
  rw [← Src.ty?_eq_some_iff, Src.has, beq_iff_eq]

/-- A source is bound for the check exactly when a value is read from it. -/
theorem Src.bound_iff {a : Src} {s : State} : a.bound s.types = true ↔ ∃ x, a.read s = .ok x := by
  rw [Src.bound, Option.isSome_iff_exists]
  simp only [Src.ty?_eq_some_iff]
  exact ⟨fun ⟨_, x, h, _⟩ => ⟨x, h⟩, fun ⟨x, h⟩ => ⟨x.ty, x, h, rfl⟩⟩

/-- A source is 8-bit for the check exactly when a byte is read from it. -/
theorem Src.has_byte_iff {a : Src} {s : State} :
    a.has s.types .byte = true ↔ ∃ b, a.readByte s = .ok b := by
  rw [Src.has_iff]
  unfold Src.readByte
  constructor
  · rintro ⟨x, h, ht⟩
    cases x <;> cases ht
    exact ⟨_, by rw [h]; rfl⟩
  · rintro ⟨b, h⟩
    cases hr : a.read s with
    | error r => rw [hr] at h; cases h
    | ok x =>
      rw [hr] at h
      cases Value.asByte_ok_iff.1 h
      exact ⟨_, rfl, rfl⟩

end Sys2Proof.Machine
end

