-- ==== Sys2Proof/Tests/Slice0.lean ====
section
/-! SUPPORT. Tests: each expected value is from spec/95_test_vectors.md (sections named E, 2, 3, programs
P) or from the rule named, never from the model. Then the witnesses: for each statement with hypotheses,
a concrete case that meets them. -/

namespace Sys2Proof.Tests

open Sys2Proof.Machine

/-- The next state of an outcome, if it is one. -/
def nextOf : Host.Outcome State Fault Refusal → Option State
  | .next s => some s
  | .fault _ => none
  | .refused _ => none

/-- The refusal of an outcome, if it is one. -/
def refusalOf : Host.Outcome State Fault Refusal → Option Refusal
  | .next _ => none
  | .fault _ => none
  | .refused r => some r

/-- The reset state asked for one line. -/
def asked (l : Line) : State := State.reset.setScript [l]

/-- What the host has bound after the step that runs one line. -/
def boundBy (l : Line) : Option (List (Nat × Value)) := (nextOf (step (asked l))).map (·.names)

def w32 (x : Word32) : Src := .lit (.word32 x)
def w64 (x : Word64) : Src := .lit (.word64 x)
def b8 (x : Byte) : Src := .lit (.byte x)

/-! ### Words written out from R72 and R73: bit 3 is `w`, bits 2:0 are `fn` -/

theorem test_decode_popcnt32 : decode 0b0000#4 = .ok .popcnt32 := by decide
theorem test_decode_pairsum32 : decode 0b0001#4 = .ok .pairsum32 := by decide
theorem test_decode_nibsum32 : decode 0b0010#4 = .ok .nibsum32 := by decide
theorem test_decode_bytesum32 : decode 0b0011#4 = .ok .bytesum32 := by decide
theorem test_decode_hsum32 : decode 0b0100#4 = .ok .hsum32 := by decide
theorem test_decode_popcnt64 : decode 0b1000#4 = .ok .popcnt64 := by decide
theorem test_decode_pairsum64 : decode 0b1001#4 = .ok .pairsum64 := by decide
theorem test_decode_nibsum64 : decode 0b1010#4 = .ok .nibsum64 := by decide
theorem test_decode_bytesum64 : decode 0b1011#4 = .ok .bytesum64 := by decide
theorem test_decode_hsum64 : decode 0b1100#4 = .ok .hsum64 := by decide

/-- R74. -/
theorem test_decode_refuses_unassigned :
    decode 0x5#4 = .error (.unassigned 0x5) ∧ decode 0x6#4 = .error (.unassigned 0x6) ∧
    decode 0x7#4 = .error (.unassigned 0x7) ∧ decode 0xD#4 = .error (.unassigned 0xD) ∧
    decode 0xE#4 = .error (.unassigned 0xE) ∧ decode 0xF#4 = .error (.unassigned 0xF) := by decide

/-- The opcode table's words, HSUM64 and the edges: 0xC is assigned, 0xD and 0x10 are not. -/
theorem test_decodeTableWord_edges :
    decodeTableWord 8 0xC = some .hsum64 ∧ decodeTableWord 8 0xD = none ∧
    decodeTableWord 8 0x10 = none := by decide

/-- P1's encoding `1, 2, 3, 4, 0`, with P2's host lines left out (R78). -/
theorem test_encodeScript :
    encodeScript [.op 0 1 (w32 0xDEADBEEF), .op 1 2 (.name 0), .zext32 9 (b8 1), .op 2 3 (.name 1),
      .op 3 4 (.name 2), .add 8 (.name 3) (.name 3), .op 4 0 (w32 0xDEADBEEF)] = [1, 2, 3, 4, 0] ∧
    encodeAll [.pairsum32, .nibsum32, .bytesum32, .hsum32, .popcnt32] = [1, 2, 3, 4, 0] := by decide

/-- A placed table word runs as the first operation after reset, on the input held (0, log 2). -/
theorem test_withFetchWord_runs_first :
    (nextOf (step (State.reset.withFetchWord 8 0xC))).map (·.names) = some [(0, .byte 0)] ∧
    (nextOf (step (State.reset.withFetchWord 8 0x1))).map (·.names) = some [(0, .word32 0)] ∧
    refusalOf (step (State.reset.withFetchWord 8 0xD)) = some (.unassignedOpid 0xD) := by decide

/-! ### The constants, bit by bit (R66 to R69) -/

theorem test_masks32_bits : ∀ i < 32, m1_32.getLsbD i = (i % 2 == 0) ∧
    m2_32.getLsbD i = (i % 4 == 0 || i % 4 == 1) ∧ m3_32.getLsbD i = decide (i % 8 < 4) ∧
    h_32.getLsbD i = (i % 8 == 0) := by decide

theorem test_masks64_bits : ∀ i < 64, m1_64.getLsbD i = (i % 2 == 0) ∧
    m2_64.getLsbD i = (i % 4 == 0 || i % 4 == 1) ∧ m3_64.getLsbD i = decide (i % 8 < 4) ∧
    h_64.getLsbD i = (i % 8 == 0) := by decide

/-- R67, R68, R69 in decimal. -/
theorem test_constants_decimal : m1_32.toNat = 1431655765 ∧ m2_32.toNat = 858993459 ∧
    m3_32.toNat = 252645135 ∧ h_32.toNat = 16843009 ∧ m1_64.toNat = 6148914691236517205 ∧
    m2_64.toNat = 3689348814741910323 ∧ m3_64.toNat = 1085102592571150095 ∧
    h_64.toNat = 72340172838076673 := by decide

/-! ### One evaluation each: every net of a row -/

/-- Section 2, row 0xDEADBEEF. -/
theorem test_popcnt32_mixed : (nextOf (step (asked (.op 7 0x0 (w32 0xDEADBEEF))))).map
    (fun t => (t.popcnt32, t.names)) = some (⟨0xDEADBEEF, 0x45545555, 0x9959699A, 0x11112112,
      0x22121222, 0x33233334, 0x36556667, 0x06050607, 0x18120D07, 24⟩, [(7, .byte 24)]) := by decide

/-- Section 2, row 0x80000000: the top bit. -/
theorem test_popcnt32_top_bit : wordNets32 0x80000000 = ⟨0x80000000, 0x40000000, 0x40000000, 0,
    0x10000000, 0x10000000, 0x11000000, 0x01000000, 0x01000000, 1⟩ := by decide

/-- Section 2, row 0x0123456789ABCDEF. -/
theorem test_popcnt64_mixed : (nextOf (step (asked (.op 7 0x8 (w64 0x0123456789ABCDEF))))).map
    (fun t => (t.popcnt64, t.names)) = some (⟨0x0123456789ABCDEF, 0x0011001144554455,
      0x011245564556899A, 0x0112011201120112, 0x0000111111112222, 0x0112122312232334,
      0x0123334543455567, 0x0103030503050507, 0x201F1C1914110C07, 32⟩, [(7, .byte 32)]) := by decide

/-- Section 2, last row of E2: all ones, the 128-bit product truncated. -/
theorem test_popcnt64_all_ones : wordNets64 0xFFFFFFFFFFFFFFFF = ⟨0xFFFFFFFFFFFFFFFF,
    0x5555555555555555, 0xAAAAAAAAAAAAAAAA, 0x2222222222222222, 0x2222222222222222,
    0x4444444444444444, 0x4888888888888888, 0x0808080808080808, 0x4038302820181008, 64⟩ := by decide

/-- P1, first line. -/
theorem test_pairsum32_step : boundBy (.op 0 0x1 (w32 0xDEADBEEF)) =
    some [(0, .word32 0x9959699A)] := by decide

/-- Section 3, row 6: 0b111 has pairs 11 and 01. -/
theorem test_pairsum32_nets : pairNets32 0x07070707 = ⟨0x07070707, 0x01010101, 0x06060606⟩ := by decide

/-- R116's example. -/
theorem test_pairsum64_step : boundBy (.op 0 0x9 (w64 0x0123456789ABCDEF)) =
    some [(0, .word64 0x011245564556899A)] := by decide

/-- Section 3, second table, row 2: the top bit. -/
theorem test_pairsum64_top_bit : (pairNets64 0x8000000000000000).s1 = 0x4000000000000000 := by decide

/-- R117: an input outside PC2. -/
theorem test_nibsum32_step : boundBy (.op 0 0x2 (w32 0xFFFFFFFF)) =
    some [(0, .word32 0x66666666)] := by decide

/-- Section 2, row 0xF0F0F0F0, from `s1`. -/
theorem test_nibsum32_nets : nibNets32 0xA0A0A0A0 =
    ⟨0xA0A0A0A0, 0x20202020, 0x20202020, 0x40404040⟩ := by decide

/-- R118's example. -/
theorem test_nibsum64_step : boundBy (.op 0 0xA (w64 0x011245564556899A)) =
    some [(0, .word64 0x0112122312232334)] := by decide

/-- Section 3, second table, row 4. -/
theorem test_nibsum64_out_of_format : (nibNets64 0xDEADBEEFCAFEBABE).s2 = 0x4544555634655455 := by decide

/-- R119: the addition wraps. -/
theorem test_bytesum32_step : (nextOf (step (asked (.op 0 0x3 (w32 0xFFFFFFFF))))).map
    (fun t => (t.bytesum32, t.names)) =
      some (⟨0xFFFFFFFF, 0x0FFFFFFE, 0x0F0F0F0E⟩, [(0, .word32 0x0F0F0F0E)]) := by decide

/-- Section 3, row 2: the logical shift. -/
theorem test_bytesum32_logical_shift : byteNets32 0x80000000 =
    ⟨0x80000000, 0x88000000, 0x08000000⟩ := by decide

/-- R120's example. -/
theorem test_bytesum64_step : boundBy (.op 0 0xB (w64 0x0112122312232334)) =
    some [(0, .word64 0x0103030503050507)] := by decide

/-- Section 3, second table, row 1. -/
theorem test_bytesum64_wraps : byteNets64 0xFFFFFFFFFFFFFFFF =
    ⟨0xFFFFFFFFFFFFFFFF, 0x0FFFFFFFFFFFFFFE, 0x0F0F0F0F0F0F0F0E⟩ := by decide

/-- R121's example. -/
theorem test_hsum32_step : boundBy (.op 0 0x4 (w32 0x04040404)) = some [(0, .byte 16)] := by decide

/-- Section 3, row 3: bytes that add up to more than 255. -/
theorem test_hsum32_over_255 : sumNets32 0x12345678 = ⟨0x12345678, 0x1502CE78, 21⟩ := by decide

/-- P5, fourth line. -/
theorem test_hsum64_step : (nextOf (step (asked (.op 0 0xC (w64 0x0302020102010100))))).map
    (fun t => (t.hsum64, t.names)) =
      some (⟨0x0302020102010100, 0x0C09070504020100, 12⟩, [(0, .byte 12)]) := by decide

/-- Section 3, second table, row 7. -/
theorem test_hsum64_over_255 : sumNets64 0x8080808080808080 =
    ⟨0x8080808080808080, 0x0383028201810080, 3⟩ := by decide

/-! ### Host lines (programs P2, P3, P5) and the reading of a bound name -/

theorem test_zext32_line : boundBy (.zext32 1 (b8 0x80)) = some [(1, .word32 0x00000080)] := by decide

theorem test_le32_line : boundBy (.le32 0 (b8 0xDE) (b8 0xAD) (b8 0xBE) (b8 0xEF)) =
    some [(0, .word32 0xEFBEADDE)] := by decide

theorem test_le64_line : boundBy (.le64 0 (b8 0) (b8 1) (b8 2) (b8 3) (b8 4) (b8 5) (b8 6) (b8 7)) =
    some [(0, .word64 0x0706050403020100)] := by decide

/-- P4's last line, `t = ADD ch cl` with 12 and 20. -/
theorem test_add_line :
    (nextOf (step { State.reset with
      names := [(2, .byte 20), (1, .byte 12)], script := [.add 3 (.name 1) (.name 2)] })).map
      (fun t => t.names.head?) = some (some (3, .total 32)) := by decide

/-- P2: `c0 = POPCNT32 w` with `w` bound by a host line. -/
theorem test_op_reads_name :
    (nextOf (step { State.reset with
      names := [(0, .word32 0xEFBEADDE)], script := [.op 1 0x0 (.name 0)] })).map
      (fun t => t.names) = some [(1, .byte 24), (0, .word32 0xEFBEADDE)] := by decide

/-- R78: host lines with an unbound source. -/
theorem test_refuses_unbound_host_source :
    refusalOf (step (asked (.le32 0 (b8 1) (.name 7) (b8 0) (b8 0)))) = some (.unboundName 7) ∧
    refusalOf (step (asked (.zext32 0 (.name 7)))) = some (.unboundName 7) := by decide

/-! ### P6: what the model refuses, beside what it accepts -/

theorem test_refuses_wide_operand :
    refusalOf (step (asked (.op 0 0x0 (w64 0x0123456789ABCDEF)))) =
      some (.widthMismatch .word32 .word64) ∧
    boundBy (.op 0 0x0 (w32 0x89ABCDEF)) = some [(0, .byte 20)] := by decide

theorem test_refuses_unassigned :
    refusalOf (step (asked (.op 0 0x5 (w32 0)))) = some (.unassignedOpid 0x5) ∧
    boundBy (.op 0 0x4 (w32 0)) = some [(0, .byte 0)] := by decide

theorem test_refuses_narrow_name :
    refusalOf (step { State.reset with
      names := [(0, .word32 1)], script := [.op 1 0xA (.name 0)] }) =
      some (.widthMismatch .word64 .word32) := by decide

/-! ### The well-formedness check: one ill-formed line for each of its parts, beside a well-formed one -/

theorem test_wellFormed_accepts : (Line.op 1 0x0 (.name 0)).wellFormed [(0, .word32)] = true := by decide
theorem test_wellFormed_refuses_opid :
    (Line.op 1 0x7 (.name 0)).wellFormed [(0, .word32)] = false := by decide
theorem test_wellFormed_refuses_width :
    (Line.op 1 0x8 (.name 0)).wellFormed [(0, .word32)] = false := by decide
theorem test_wellFormed_refuses_unbound :
    (Line.op 1 0x0 (.name 2)).wellFormed [(0, .word32)] = false := by decide
theorem test_wellFormed_refuses_rebinding :
    (Line.op 0 0x0 (.name 0)).wellFormed [(0, .word32)] = false := by decide
theorem test_wellFormed_refuses_host_width :
    (Line.le32 1 (b8 0) (b8 0) (w32 0) (b8 0)).wellFormed [] = false ∧
    (Line.zext32 1 (w32 0)).wellFormed [] = false ∧
    (Line.le64 1 (b8 0) (b8 0) (b8 0) (b8 0) (b8 0) (b8 0) (b8 0) (w32 0)).wellFormed [] = false ∧
    (Line.add 1 (b8 0) (.name 0)).wellFormed [] = false := by decide
/-- A script is refused for its second line, whose source has another width than the first line bound. -/
theorem test_scriptWellFormed :
    scriptWellFormed [] [.op 0 0x1 (w32 1), .op 1 0x2 (.name 0)] = true ∧
    scriptWellFormed [] [.op 0 0x1 (w32 1), .op 1 0xA (.name 0)] = false := by decide

/-! ### The environment (R48, E4) -/

/-- P5: a buffer of 13 bytes is fed as one 64-bit word, one 32-bit word and one byte. -/
theorem test_feed_13_bytes :
    feed [0x00, 0x01, 0x02, 0x03, 0x04, 0x05, 0x06, 0x07, 0x08, 0x09, 0x0A, 0x0B, 0x0C] =
      [(.popcnt64, .word64 0x0706050403020100), (.popcnt32, .word32 0x0B0A0908),
        (.popcnt32, .word32 0x0000000C)] := by decide

/-- P2: a buffer of 7 bytes adds up to 34. -/
theorem test_countBuffer_7_bytes :
    (countBuffer [0xDE, 0xAD, 0xBE, 0xEF, 0x01, 0x80, 0xFF] State.reset).map (·.2) = some 34 := by decide

/-! ### Witnesses: each statement's hypotheses are met together -/

theorem test_witness_StepRunsDecodedOperation : ∃ (s : State) (dst : Nat) (c : Opid) (src : Src)
    (ls : List Line) (i : Instr) (x : Value), s.script = .op dst c src :: ls ∧ decode c = .ok i ∧
    s.names.lookup dst = none ∧ src.read s = .ok x ∧ x.ty = operandTy i :=
  ⟨asked (.op 0 0xC (w64 5)), 0, 0xC, w64 5, [], .hsum64, .word64 5, rfl, rfl, rfl, rfl, rfl⟩

theorem test_witness_StepRunsPlacedTableWord : decodeTableWord 8 0xC = some .hsum64 := by decide

theorem test_witness_RunEndsWithTheScript_empty : State.reset.script = [] := rfl

theorem test_witness_RunEndsWithTheScript_line : ∃ t, step (asked (.zext32 0 (b8 0xFF))) = .next t :=
  ⟨_, rfl⟩

theorem test_witness_UnassignedIdentifierRefused :
    (asked (.op 0 0x5 (w32 0))).script = [.op 0 0x5#4 (w32 0)] ∧
    (asked (.op 0 0xF (.name 3))).script = [.op 0 0xF#4 (.name 3)] := ⟨rfl, rfl⟩

theorem test_witness_WrongWidthOperandRefused : ∃ (s : State) (dst : Nat) (c : Opid) (src : Src)
    (ls : List Line) (i : Instr) (x : Value), s.script = .op dst c src :: ls ∧ decode c = .ok i ∧
    s.names.lookup dst = none ∧ src.read s = .ok x ∧ x.ty ≠ operandTy i :=
  ⟨asked (.op 0 0x0 (w64 1)), 0, 0x0, w64 1, [], .popcnt32, .word64 1, rfl, rfl, rfl, rfl, by decide⟩

theorem test_witness_NamesBoundOnceAndBeforeUse_taken : ∃ (s : State) (l : Line) (ls : List Line),
    s.script = l :: ls ∧ l.ty? ≠ none ∧ (s.names.lookup l.dst).isSome :=
  ⟨{ State.reset with names := [(4, .byte 1)], script := [.op 4 0x0 (w32 0)] },
    .op 4 0x0 (w32 0), [], rfl, by decide, by decide⟩

/-- A line whose first source is unbound, and one whose last is. -/
theorem test_witness_NamesBoundOnceAndBeforeUse_unbound :
    (∃ (s : State) (l : Line) (ls : List Line) (after : List Src) (n : Nat), s.script = l :: ls ∧
      l.ty? ≠ none ∧ s.names.lookup l.dst = none ∧ l.sources = [] ++ .name n :: after ∧
      s.names.lookup n = none) ∧
    ∃ (s : State) (l : Line) (ls : List Line) (before : List Src) (n : Nat), s.script = l :: ls ∧
      l.ty? ≠ none ∧ s.names.lookup l.dst = none ∧ l.sources = before ++ .name n :: [] ∧
      (∀ a ∈ before, ∃ b, a.readByte s = .ok b) ∧ s.names.lookup n = none :=
  ⟨⟨asked (.op 0 0x0 (.name 0)), .op 0 0x0 (.name 0), [], [], 0, rfl, by decide, rfl, rfl, rfl⟩,
    asked (.le32 0 (b8 1) (b8 2) (b8 0xFF) (.name 0)), .le32 0 (b8 1) (b8 2) (b8 0xFF) (.name 0), [],
    [b8 1, b8 2, b8 0xFF], 0, rfl, by decide, rfl, rfl,
    by simp only [List.forall_mem_cons]; exact ⟨⟨_, rfl⟩, ⟨_, rfl⟩, ⟨_, rfl⟩, by simp⟩, rfl⟩

theorem test_witness_NamesBoundOnceAndBeforeUse_add : ∃ (s : State) (dst n : Nat) (y : Src) (x : Value)
    (ls : List Line), s.script = .add dst y (.name n) :: ls ∧ s.names.lookup dst = none ∧
    y.read s = .ok x ∧ s.names.lookup n = none :=
  ⟨asked (.add 0 (w64 1) (.name 5)), 0, 5, w64 1, .word64 1, [], rfl, rfl, rfl, rfl⟩

/-- P2's first lines, shortened: a host line, then an operation line on what it bound. -/
theorem test_witness_ScriptIdentifiersRoundTrip : scriptWellFormed []
    [.zext32 0 (b8 0xFF), .op 1 0x0 (.name 0), .op 2 0xC (w64 0)] = true ∧
    scriptOps [.zext32 0 (b8 0xFF), .op 1 0x0 (.name 0), .op 2 0xC (w64 0)] =
      [.popcnt32, .hsum64] := by decide

theorem test_witness_HostLinesFormOperandsAndSums_zext32 : ∃ (s : State) (ls : List Line) (dst : Nat)
    (b : Src) (c : Byte), s.script = .zext32 dst b :: ls ∧ s.names.lookup dst = none ∧
    b.readByte s = .ok c :=
  ⟨asked (.zext32 0 (b8 0xFF)), [], 0, b8 0xFF, 0xFF, rfl, rfl, rfl⟩

theorem test_witness_HostLinesFormOperandsAndSums_le32 : ∃ (s : State) (ls : List Line) (dst : Nat)
    (b0 b1 b2 b3 : Src) (c0 c1 c2 c3 : Byte), s.script = .le32 dst b0 b1 b2 b3 :: ls ∧
    s.names.lookup dst = none ∧ b0.readByte s = .ok c0 ∧ b1.readByte s = .ok c1 ∧
    b2.readByte s = .ok c2 ∧ b3.readByte s = .ok c3 :=
  ⟨asked (.le32 0 (b8 1) (b8 2) (b8 3) (b8 0xFF)), [], 0, b8 1, b8 2, b8 3, b8 0xFF, 1, 2, 3, 0xFF,
    rfl, rfl, rfl, rfl, rfl, rfl⟩

theorem test_witness_HostLinesFormOperandsAndSums_le64 : ∃ (s : State) (ls : List Line) (dst : Nat)
    (b0 b1 b2 b3 b4 b5 b6 b7 : Src) (c0 c1 c2 c3 c4 c5 c6 c7 : Byte),
    s.script = .le64 dst b0 b1 b2 b3 b4 b5 b6 b7 :: ls ∧ s.names.lookup dst = none ∧
    b0.readByte s = .ok c0 ∧ b1.readByte s = .ok c1 ∧ b2.readByte s = .ok c2 ∧
    b3.readByte s = .ok c3 ∧ b4.readByte s = .ok c4 ∧ b5.readByte s = .ok c5 ∧
    b6.readByte s = .ok c6 ∧ b7.readByte s = .ok c7 :=
  ⟨asked (.le64 0 (b8 1) (b8 2) (b8 3) (b8 4) (b8 5) (b8 6) (b8 7) (b8 0xFF)), [], 0,
    b8 1, b8 2, b8 3, b8 4, b8 5, b8 6, b8 7, b8 0xFF, 1, 2, 3, 4, 5, 6, 7, 0xFF,
    rfl, rfl, rfl, rfl, rfl, rfl, rfl, rfl, rfl, rfl⟩

theorem test_witness_HostLinesFormOperandsAndSums_add : ∃ (s : State) (ls : List Line) (dst : Nat)
    (y z : Src) (a b : Value), s.script = .add dst y z :: ls ∧ s.names.lookup dst = none ∧
    y.read s = .ok a ∧ z.read s = .ok b :=
  ⟨asked (.add 0 (b8 12) (b8 20)), [], 0, b8 12, b8 20, .byte 12, .byte 20, rfl, rfl, rfl, rfl⟩

theorem test_witness_WellFormedScriptRunsOn :
    (asked (.op 0 0x0 (w32 0xFFFFFFFF))).ScriptFits ∧ State.reset.ScriptFits := by decide

theorem test_witness_IllFormedLineRefused : ∃ (s : State) (l : Line) (ls : List Line),
    s.script = l :: ls ∧ l.wellFormed s.types = false :=
  ⟨asked (.op 0 0xD (w64 0)), .op 0 0xD (w64 0), [], rfl, by decide⟩

theorem test_witness_StepKeepsInvariant :
    (asked (.op 0 0x8 (w64 1))).Inv ∧ ∃ t, step (asked (.op 0 0x8 (w64 1))) = .next t :=
  ⟨by decide, _, rfl⟩

theorem test_witness_SettledCountIsPopulationCount :
    State.reset.Settled ∧ (State.reset.setPopcnt32 (wordNets32 0xFFFFFFFF)).Settled := by decide

theorem test_witness_Nibsum_input_PC2 :
    FieldsAtMost 2 2 0xAAAAAAAA#32 ∧ FieldsAtMost 2 2 0xAAAAAAAAAAAAAAAA#64 := by
  unfold FieldsAtMost; decide

theorem test_witness_Bytesum_input_PC4 :
    FieldsAtMost 4 4 0x44444444#32 ∧ FieldsAtMost 4 4 0x4444444444444444#64 := by
  unfold FieldsAtMost; decide

theorem test_witness_Bytesum_input_nibbles_to_7 :
    FieldsAtMost 4 7 0x77777777#32 ∧ FieldsAtMost 4 7 0x7777777777777777#64 := by
  unfold FieldsAtMost; decide

theorem test_witness_Hsum_input_PC8 :
    FieldsAtMost 8 8 0x08080808#32 ∧ FieldsAtMost 8 8 0x0808080808080808#64 := by
  unfold FieldsAtMost; decide

theorem test_witness_Hsum_input_sum_255 :
    byteSumBelow 0x3F404040#32 4 = 255 ∧ byteSumBelow 0x1F20202020202020#64 8 = 255 := by decide

theorem test_witness_NibblesFit : NibblesFit 0x78787878#32 ∧ NibblesFit 0x7878787878787878#64 := by
  constructor <;> intro j hj
  · have h : j < 7 := by omega
    interval_cases j <;> decide
  · have h : j < 15 := by omega
    interval_cases j <;> decide

theorem test_witness_StepCountsExactly :
    (w32 0xFFFFFFFF).read (asked (.op 0 0x0 (w32 0xFFFFFFFF))) = .ok (.word32 0xFFFFFFFF) ∧
    (asked (.op 0 0x0 (w32 0xFFFFFFFF))).names.lookup 0 = none ∧
    (w64 0xFFFFFFFFFFFFFFFF).read (asked (.op 0 0x8 (w64 0xFFFFFFFFFFFFFFFF))) =
      .ok (.word64 0xFFFFFFFFFFFFFFFF) ∧
    (asked (.op 0 0x8 (w64 0xFFFFFFFFFFFFFFFF))).names.lookup 0 = none := ⟨rfl, rfl, rfl, rfl⟩

theorem test_witness_EvaluationTotalPureRepeatable :
    (Value.word32 0xFFFFFFFF).ty = operandTy .nibsum32 ∧
    (Value.word64 0xFFFFFFFFFFFFFFFF).ty = operandTy .hsum64 := ⟨rfl, rfl⟩

theorem test_witness_EvaluationsCommute : Instr.popcnt32 ≠ .pairsum32 ∧
    (Value.word32 1).ty = operandTy .popcnt32 ∧ (Value.word32 2).ty = operandTy .pairsum32 := by decide

theorem test_witness_AdjacentLinesCommute : ∃ (k l : Line) (s a t b : State),
    runLine k s = .next a ∧ runLine l a = .next t ∧ runLine l s = .next b :=
  ⟨.op 0 0x0 (w32 1), .op 1 0x0 (w32 3), State.reset, _, _, _, rfl, rfl, rfl⟩

theorem test_witness_CountSplits :
    0x55555555#32 &&& 0xAAAAAAAA#32 = 0 ∧ 0x5555555555555555#64 &&& 0xAAAAAAAAAAAAAAAA#64 = 0 := by
  decide

theorem test_witness_CountIdentities : (0x80000000#32 : Word32) ≠ 0 ∧
    (0x8000000000000000#64 : Word64) ≠ 0 := by decide

theorem test_witness_CountIgnoresBitOrder : ∃ (f : Equiv.Perm (Fin 32)) (x y : Word32),
    ∀ i : Fin 32, y.getLsb i = x.getLsb (f i) :=
  ⟨Fin.revPerm, 0x00000001, 0x80000000, by decide⟩

theorem test_witness_CountIgnoresBitOrder_64 : ∃ (f : Equiv.Perm (Fin 64)) (x y : Word64),
    ∀ i : Fin 64, y.getLsb i = x.getLsb (f i) :=
  ⟨Fin.revPerm, 0x0000000000000001, 0x8000000000000000, by decide⟩

theorem test_witness_StagesActOnHalves_fit :
    NibblesFit (w := 64) (0x78787878#32 ++ 0x78787878#32) := test_witness_NibblesFit.2

theorem test_witness_BufferCountLinear : ∃ t u v m n k,
    countBuffer [0xFF] State.reset = some (t, m) ∧ countBuffer [0x80] State.reset = some (u, n) ∧
    countBuffer [0xFF, 0x80] State.reset = some (v, k) := ⟨_, _, _, _, _, _, rfl, rfl, rfl⟩

end Sys2Proof.Tests
end

/-! PROOFS. What one evaluation does to the whole state (spec/00_scope.md R12, R43, R98, R148), and the
step that runs an operation line (spec/30_encoding.md R77). -/

namespace Sys2Proof.Machine

/-! ### A state is its instances, its names and its script -/

/-- Two states with the same nets at every instance, the same bound names and the same script are one
state. -/
theorem State.ext_netsOf {s t : State} (hnets : ∀ j, s.netsOf j = t.netsOf j)
    (hnames : s.names = t.names) (hscript : s.script = t.script) : s = t := by
  cases s; cases t
  rw [State.mk.injEq]
  exact ⟨InstanceNets.word32.inj (hnets .popcnt32), InstanceNets.pair32.inj (hnets .pairsum32),
    InstanceNets.nib32.inj (hnets .nibsum32), InstanceNets.byte32.inj (hnets .bytesum32),
    InstanceNets.sum32.inj (hnets .hsum32), InstanceNets.word64.inj (hnets .popcnt64),
    InstanceNets.pair64.inj (hnets .pairsum64), InstanceNets.nib64.inj (hnets .nibsum64),
    InstanceNets.byte64.inj (hnets .bytesum64), InstanceNets.sum64.inj (hnets .hsum64),
    hnames, hscript⟩

/-- What the host reads from an instance is one of that instance's nets. -/
theorem State.result_eq_of_netsOf_eq {i : Instr} {s t : State} (h : s.netsOf i = t.netsOf i) :
    s.result i = t.result i := by
  cases i <;> injection h with h <;> simp only [State.result, h]

/-! ### The nets of the evaluated instance depend on its operand alone -/

/-- The value driven is the value that then stands on the input. -/
theorem State.operand_of_drive {i : Instr} {x : Value} {s d : State} (h : s.drive i x = .ok d) :
    d.operand i = x := by
  by_cases hx : x.ty = operandTy i
  · obtain ⟨d', hd', ho, -, -⟩ := State.drive_of_ty s hx
    cases hd'.symm.trans h
    exact ho
  · rw [State.drive_of_ty_ne s hx] at h; cases h

/-- An operation reads nothing of the state but the operand on its own input. -/
theorem exec_netsOf_congr {i : Instr} {s s' t t' : State} (ho : s.operand i = s'.operand i)
    (h : exec i s = .next t) (h' : exec i s' = .next t') : t.netsOf i = t'.netsOf i := by
  cases i <;> injection ho with ho <;> cases h <;> cases h' <;> simp [State.netsOf, ho]

/-- Two evaluations of one operation on one operand leave the same nets, from whatever states. -/
theorem evaluate_netsOf_congr {i : Instr} {x : Value} {s s' t t' : State}
    (h : evaluate i x s = .next t) (h' : evaluate i x s' = .next t') :
    t.netsOf i = t'.netsOf i := by
  obtain ⟨d, hd, he⟩ := evaluate_next_iff.1 h
  obtain ⟨d', hd', he'⟩ := evaluate_next_iff.1 h'
  have ho : d.operand i = d'.operand i :=
    (State.operand_of_drive hd).trans (State.operand_of_drive hd').symm
  exact exec_netsOf_congr ho he he'

/-- Evaluating the same operand again changes nothing: the instance's nets are those of the operand, and
the rest is outside the evaluation's frame. -/
theorem evaluate_again {i : Instr} {x : Value} {s t : State} (hx : x.ty = operandTy i)
    (h : evaluate i x s = .next t) : evaluate i x t = .next t := by
  obtain ⟨-, u, -, -, -, hu, -, hnames, hscript⟩ := evaluate_of_ty t hx
  have hnets : ∀ j, u.netsOf j = t.netsOf j := fun j => by
    by_cases hj : j = i
    · subst hj; exact evaluate_netsOf_congr hu h
    · exact evaluate_netsOf_other hu hj
  rw [hu, State.ext_netsOf hnets hnames hscript]

/-- Settles O26: the nets follow the operand (`evaluate_netsOf_congr`), the rest is the frame, and
repetition changes nothing (`evaluate_again`). -/
theorem evaluationTotalPureRepeatable : Obligations.EvaluationTotalPureRepeatable := by
  intro i x s s' hx
  obtain ⟨-, t, -, -, -, ht, hop, hnames, hscript⟩ := evaluate_of_ty s hx
  obtain ⟨-, t', -, -, -, ht', -⟩ := evaluate_of_ty s' hx
  have hnets := evaluate_netsOf_congr ht ht'
  exact ⟨t, t', ht, ht', hop, hnets, State.result_eq_of_netsOf_eq hnets, State.result_ty i t, hnames,
    hscript, fun j hj => evaluate_netsOf_other ht hj, evaluate_again hx ht⟩

/-! ### A step with an operation line next -/

/-- A step with a line next runs that line on the state that asks for the rest. -/
theorem step_of_script_cons {s : State} {l : Line} {ls : List Line} (h : s.script = l :: ls) :
    step s = runLine l (s.setScript ls) := by
  obtain ⟨hnil, -⟩ | ⟨k, ks, hcons, hstep⟩ := step_cases s
  · cases hnil.symm.trans h
  · cases hcons.symm.trans h
    exact hstep

/-- Settles O3: the line fetches the decoded operation and its operand (`fetchOp_ok_iff`), the
evaluation drives and runs it (`evaluate_of_ty`), and the line binds the result. -/
theorem stepRunsDecodedOperation : Obligations.StepRunsDecodedOperation := by
  intro s dst c src ls i x hscript hdecode hfree hread hx
  obtain ⟨d, t, hdrive, hop, hexec, heval, -⟩ := evaluate_of_ty (s.setScript ls) hx
  have hfetch : fetchOp dst c src (s.setScript ls) = .ok (i, x) :=
    fetchOp_ok_iff.2 ⟨hdecode, hfree, by rw [Src.read_setScript, hread]⟩
  have hline : runLine (.op dst c src) (s.setScript ls) = .next (t.bindName dst (t.result i)) :=
    runOpLine_next_iff.2 ⟨i, x, t, hfetch, heval, rfl⟩
  exact ⟨d, t, hdrive, hop, hexec, (step_of_script_cons hscript).trans hline⟩

end Sys2Proof.Machine

/-! PROOFS. Every state of a run (spec/10_state.md R30, spec/30_encoding.md R78): reset meets the
invariant and every step keeps it. -/

namespace Sys2Proof.Machine

/-! ### Nets that follow their input, one instance at a time -/

/-- Every net of one instance has the value its rule gives for the operand on that instance's input. -/
def InstanceNets.Settled : InstanceNets → Prop
  | .word32 n => n = wordNets32 n.v
  | .pair32 n => n = pairNets32 n.v
  | .nib32 n => n = nibNets32 n.s1
  | .byte32 n => n = byteNets32 n.s2
  | .sum32 n => n = sumNets32 n.s3
  | .word64 n => n = wordNets64 n.v
  | .pair64 n => n = pairNets64 n.v
  | .nib64 n => n = nibNets64 n.s1
  | .byte64 n => n = byteNets64 n.s2
  | .sum64 n => n = sumNets64 n.s3

/-- A state is settled exactly when each of its ten instances is. -/
theorem State.settled_iff_netsOf {s : State} : s.Settled ↔ ∀ i, (s.netsOf i).Settled := by
  constructor
  · rintro ⟨h0, h1, h2, h3, h4, h5, h6, h7, h8, h9⟩ i
    cases i <;> assumption
  · intro h
    exact ⟨h .popcnt32, h .pairsum32, h .nibsum32, h .bytesum32, h .hsum32,
      h .popcnt64, h .pairsum64, h .nibsum64, h .bytesum64, h .hsum64⟩

/-- An operation settles its own instance, whatever its nets held before. -/
theorem exec_netsOf_settled {i : Instr} {s t : State} (h : exec i s = .next t) :
    (t.netsOf i).Settled := by
  cases i <;> cases h <;> simp [State.netsOf, InstanceNets.Settled]

/-- An evaluation keeps a settled state settled: its own instance by its rule, the others by its frame. -/
theorem evaluate_settled {i : Instr} {x : Value} {s t : State} (hs : s.Settled)
    (h : evaluate i x s = .next t) : t.Settled := by
  refine State.settled_iff_netsOf.2 fun j => ?_
  by_cases hj : j = i
  · subst hj
    obtain ⟨d, -, hexec⟩ := evaluate_next_iff.1 h
    exact exec_netsOf_settled hexec
  · rw [evaluate_netsOf_other h hj]
    exact State.settled_iff_netsOf.1 hs j

/-- An evaluation leaves the bound names alone. -/
theorem evaluate_names {i : Instr} {x : Value} {s t : State} (h : evaluate i x s = .next t) :
    t.names = s.names := by
  obtain ⟨d, hdrive, -⟩ := evaluate_next_iff.1 h
  have hx : x.ty = operandTy i := by rw [← State.operand_of_drive hdrive, State.operand_ty]
  obtain ⟨-, u, -, -, -, hu, -, hnames, -⟩ := evaluate_of_ty s hx
  cases hu.symm.trans h
  exact hnames

/-! ### What a line does to the state -/

/-- All a line can do: bind the free name it asks for, after at most one evaluation. -/
theorem runLine_next_cases {l : Line} {s t : State} (h : runLine l s = .next t) :
    s.names.lookup l.dst = none ∧ ∃ u x, t = u.bindName l.dst x ∧
      (u = s ∨ ∃ i y, evaluate i y s = .next u) := by
  cases l with
  | op dst c src =>
    obtain ⟨i, x, u, hfetch, heval, ht⟩ := runOpLine_next_iff.1 h
    obtain ⟨-, hfree, -⟩ := fetchOp_ok_iff.1 hfetch
    exact ⟨hfree, u, u.result i, ht, .inr ⟨i, x, heval⟩⟩
  | zext32 | le32 | le64 | add =>
    obtain ⟨x, hfree, -, ht⟩ := runHostLine_next_iff.1 h
    exact ⟨hfree, s, x, ht, .inl rfl⟩

/-- Binding a free name keeps the names distinct. -/
theorem State.NamesDistinct.bindName {s : State} {n : Nat} (hs : s.NamesDistinct)
    (hfree : s.names.lookup n = none) (x : Value) : (s.bindName n x).NamesDistinct := by
  refine List.nodup_cons.2 ⟨fun hmem => ?_, hs⟩
  obtain ⟨b, hb, hn⟩ := List.mem_map.1 hmem
  have hne := List.lookup_eq_none_iff.1 hfree b hb
  simp [hn] at hne

/-- A line keeps the invariant. -/
theorem runLine_inv {l : Line} {s t : State} (hs : s.Inv) (h : runLine l s = .next t) : t.Inv := by
  obtain ⟨hsettled, hnames⟩ := hs
  obtain ⟨hfree, u, x, rfl, rfl | ⟨i, y, heval⟩⟩ := runLine_next_cases h
  · exact ⟨hsettled, hnames.bindName hfree x⟩
  · rw [← evaluate_names heval] at hfree
    have hu : u.Settled := evaluate_settled hsettled heval
    have hdistinct : u.NamesDistinct := by rwa [State.NamesDistinct, evaluate_names heval]
    exact ⟨hu, hdistinct.bindName hfree x⟩

/-- Settles O13: a step does nothing or runs one line (`step_cases`), and a line keeps the invariant. -/
theorem stepKeepsInvariant : Obligations.StepKeepsInvariant := by
  intro s t hs hstep
  obtain ⟨-, hstay⟩ | ⟨l, ls, -, hline⟩ := step_cases s
  · cases hstay.symm.trans hstep
    exact hs
  · exact runLine_inv (s := s.setScript ls) hs (hline.symm.trans hstep)

/-- Settles O12: at the operand 0 every rule gives 0, which is what reset holds. -/
theorem resetMeetsInvariant : Obligations.ResetMeetsInvariant := by
  have hsettled : State.reset.Settled := by decide
  exact ⟨⟨hsettled, List.nodup_nil⟩, rfl, rfl,
    fun i => by cases i <;> rfl, fun i => by cases i <;> rfl⟩

end Sys2Proof.Machine

/-! PROOFS. The count of the datapath is the population count (spec/40_popcount_word.md R92), at every
width of whole bytes at once: a low byte goes through steps 1 to 3 apart from the rest of the word
(spec/41_reduction_tree.md R123 to R125), and the product adds the bytes up (R126). -/

namespace Sys2Proof.Machine

/-! ### Words of whole bytes -/

/-- The word of `k` bytes that are each `b`. -/
def repByte (b : Byte) : (k : Nat) → BitVec (8 * k)
  | 0 => 0#0
  | k + 1 => repByte b k ++ b

/-- A property of all words of whole bytes: it holds of the empty word, and a low byte keeps it. -/
theorem byteInduction {P : (k : Nat) → BitVec (8 * k) → Prop} (empty : P 0 0#0)
    (append : ∀ k hi (lo : Byte), P k hi → P (k + 1) (hi ++ lo)) (k : Nat) (x : BitVec (8 * k)) :
    P k x := by
  induction k with
  | zero => rwa [BitVec.eq_nil x]
  | succ k ih =>
    have hx : x.extractLsb' 8 (8 * k) ++ x.extractLsb' 0 8 = x :=
      (BitVec.extractLsb'_append_extractLsb'_eq_extractLsb' rfl).trans BitVec.extractLsb'_eq_self
    exact hx ▸ append k _ _ (ih _)

/-- The lowest byte of `hi ++ lo` is `lo`. -/
theorem field_append_zero {m : Nat} (hi : BitVec m) (lo : Byte) : field (hi ++ lo) 8 0 = lo := by
  apply BitVec.eq_of_getLsbD_eq
  intro i h
  simp [field, BitVec.getLsbD_append, h]

/-- The bytes above it are those of `hi`, one place up. -/
theorem field_append_succ {m : Nat} (hi : BitVec m) (lo : Byte) (j : Nat) :
    field (hi ++ lo) 8 (j + 1) = field hi 8 j := by
  apply BitVec.eq_of_getLsbD_eq
  intro i h
  have hge : ¬ 8 * (j + 1) + i < 8 := by omega
  have hsub : 8 * (j + 1) + i - 8 = 8 * j + i := by omega
  simp [field, BitVec.getLsbD_append, hge, hsub]

/-- The byte sum of `hi ++ lo` is that of `hi` and the byte `lo`. -/
theorem byteSumBelow_append {m : Nat} (hi : BitVec m) (lo : Byte) (n : Nat) :
    byteSumBelow (hi ++ lo) (n + 1) = byteSumBelow hi n + lo.toNat := by
  induction n with
  | zero => simp [byteSumBelow, field_append_zero]
  | succ n ih =>
    rw [byteSumBelow, ih, field_append_succ, byteSumBelow]
    omega

/-! ### Steps 1 to 3, byte by byte -/

/-- Under mask M3 only the low nibble of each byte of the sum is kept, so where no nibble sum carries,
step 3 acts on each part of a word. -/
theorem byteNets_append {m : Nat} (m3 hi : BitVec m) (lo : Byte) (hhi : hi.toNat % 16 < 8)
    (hlo : lo.toNat < 128) :
    (byteNets (m3 ++ 0x0F#8) (hi ++ lo)).s3 = (byteNets m3 hi).s3 ++ (byteNets 0x0F#8 lo).s3 := by
  -- the low byte of the shifted word, with the low nibble of `hi` above the high one of `lo`
  obtain ⟨c, hc⟩ : ∃ c : Byte, c.toNat = hi.toNat % 16 * 16 + lo.toNat / 16 :=
    ⟨BitVec.ofNat 8 _, Nat.mod_eq_of_lt (by omega)⟩
  have hshift : (hi ++ lo) >>> 4 = (hi >>> 4) ++ c := by
    apply BitVec.eq_of_toNat_eq
    simp only [BitVec.toNat_ushiftRight, toNat_append_eq, Nat.shiftRight_eq_div_pow, hc]
    omega
  have hlow : (lo + c) &&& 0x0F#8 = (lo + (lo >>> 4)) &&& 0x0F#8 := by
    apply BitVec.eq_of_toNat_eq
    simp only [BitVec.toNat_and, BitVec.toNat_add, BitVec.toNat_ushiftRight, hc,
      Nat.shiftRight_eq_div_pow]
    change _ &&& (2 ^ 4 - 1) = _ &&& (2 ^ 4 - 1)
    simp only [Nat.and_two_pow_sub_one_eq_mod]
    omega
  simp only [byteNets_s3]
  rw [hshift, add_append hi _ lo c (by omega), BitVec.and_append, hlow]

/-- The bits of a word at and above a bound on its number are clear. -/
theorem getLsbD_eq_false_of_toNat_lt {w i j : Nat} {x : BitVec w} (hx : x.toNat < 2 ^ j) (h : j ≤ i) :
    x.getLsbD i = false :=
  Nat.testBit_lt_two_pow (hx.trans_le (Nat.pow_le_pow_right (by decide) h))

/-- The datapath at a width of `k` bytes. -/
def byteDatapath (k : Nat) (v : BitVec (8 * k)) : WordNets (8 * k) :=
  wordNets (repByte 0x55#8 k) (repByte 0x33#8 k) (repByte 0x0F#8 k) (repByte 0x01#8 k) v

theorem wordNets32_eq_byteDatapath (v : Word32) : wordNets32 v = byteDatapath 4 v := rfl

theorem wordNets64_eq_byteDatapath (v : Word64) : wordNets64 v = byteDatapath 8 v := rfl

/-- The datapath on a single byte. -/
abbrev oneByteNets (b : Byte) : WordNets 8 := wordNets 0x55#8 0x33#8 0x0F#8 0x01#8 b

section

variable {k : Nat} (hi : BitVec (8 * k)) (lo : Byte)

/-- No pair borrows, so a low byte goes through step 1 on its own (R123). -/
theorem byteDatapath_append_s1 :
    (byteDatapath (k + 1) (hi ++ lo)).s1 = (byteDatapath k hi).s1 ++ (oneByteNets lo).s1 := by
  have hborrow : ∀ b : Byte, (b >>> 1) &&& 0x55#8 ≤ b := by decide
  exact pairNets_append (repByte 0x55#8 k) hi 0x55#8 lo
    (fun i h => getLsbD_eq_false_of_toNat_lt (j := 7) (by decide) (by omega)) (hborrow lo)

/-- No nibble carries, so a low byte goes through step 2 on its own (R124). -/
theorem byteDatapath_append_s2 :
    (byteDatapath (k + 1) (hi ++ lo)).s2 = (byteDatapath k hi).s2 ++ (oneByteNets lo).s2 := by
  have hcarry : ∀ b : Byte, (b &&& 0x33#8).toNat + ((b >>> 2) &&& 0x33#8).toNat < 2 ^ 8 := by decide
  have h := nibNets_append (repByte 0x33#8 k) (byteDatapath k hi).s1 0x33#8 (oneByteNets lo).s1
    (fun i h => getLsbD_eq_false_of_toNat_lt (j := 6) (by decide) (by omega)) (hcarry _)
  rw [← byteDatapath_append_s1] at h
  exact h

/-- The lowest nibble after step 2 counts four bits. -/
theorem byteDatapath_s2_low_nibble : (byteDatapath k hi).s2.toNat % 16 ≤ 4 := by
  induction k, hi using byteInduction with
  | empty => decide
  | append k hi lo _ =>
    have hlo : ∀ b : Byte, (oneByteNets b).s2.toNat % 16 ≤ 4 := by decide
    have := hlo lo
    rw [byteDatapath_append_s2, toNat_append_eq]
    omega

/-- No nibble sum carries, so a low byte goes through step 3 on its own (R125). -/
theorem byteDatapath_append_s3 :
    (byteDatapath (k + 1) (hi ++ lo)).s3 = (byteDatapath k hi).s3 ++ (oneByteNets lo).s3 := by
  have hlo : ∀ b : Byte, (oneByteNets b).s2.toNat < 128 := by decide
  have hhi := byteDatapath_s2_low_nibble hi
  have h := byteNets_append (repByte 0x0F#8 k) (byteDatapath k hi).s2 (oneByteNets lo).s2
    (by omega) (hlo lo)
  rw [← byteDatapath_append_s2] at h
  exact h

/-- After step 3 the bytes add up to the population count. -/
theorem byteSumBelow_byteDatapath_s3 : byteSumBelow (byteDatapath k hi).s3 k = popcnt hi := by
  induction k, hi using byteInduction with
  | empty => rfl
  | append k hi lo ih =>
    have hlo : ∀ b : Byte, (oneByteNets b).s3.toNat = popcnt b := by decide
    rw [byteDatapath_append_s3, byteSumBelow_append, ih, hlo]
    exact (popcnt_append hi lo).symm

end

/-! ### Step 4: the product by the multiplier of ones -/

theorem repByte_succ_toNat (b : Byte) (k : Nat) :
    (repByte b (k + 1)).toNat = (repByte b k).toNat * 2 ^ 8 + b.toNat :=
  toNat_append_eq _ _

/-- The multiplier of `k + 1` ones is that of `k` ones with a one above. -/
theorem ones_succ_toNat (k : Nat) :
    (repByte 0x01#8 (k + 1)).toNat = 2 ^ (8 * k) + (repByte 0x01#8 k).toNat := by
  induction k with
  | zero => rfl
  | succ k ih =>
    have hk := ih.symm.trans (repByte_succ_toNat _ k)
    rw [repByte_succ_toNat, ih, Nat.mul_succ, Nat.pow_add]
    omega

/-- A low byte moves the running byte sums of `hi` up one place and adds itself to each. -/
theorem prefixWordBelow_append {m : Nat} (hi : BitVec m) (lo : Byte) (n : Nat) :
    prefixWordBelow (hi ++ lo) (n + 1) =
      prefixWordBelow hi n * 2 ^ 8 + lo.toNat * (repByte 0x01#8 (n + 1)).toNat := by
  induction n with
  | zero => simp [prefixWordBelow, byteSumBelow, field_append_zero, repByte]
  | succ n ih =>
    rw [prefixWordBelow, ih, byteSumBelow_append, ones_succ_toNat (n + 1), prefixWordBelow]
    ring

/-- The product holds the running byte sums, modulo its width (R126). -/
theorem mul_ones_modEq (k : Nat) (x : BitVec (8 * k)) :
    x.toNat * (repByte 0x01#8 k).toNat ≡ prefixWordBelow x k [MOD 2 ^ (8 * k)] := by
  induction k, x using byteInduction with
  | empty => rfl
  | append k hi lo ih =>
    have hih : hi.toNat * (repByte 0x01#8 k).toNat * 2 ^ 8 ≡
        prefixWordBelow hi k * 2 ^ 8 [MOD 2 ^ (8 * (k + 1))] := by
      rw [Nat.mul_succ, Nat.pow_add]
      exact ih.mul_right' _
    have hprod : (hi ++ lo).toNat * (repByte 0x01#8 (k + 1)).toNat =
        hi.toNat * (repByte 0x01#8 k).toNat * 2 ^ 8 + lo.toNat * (repByte 0x01#8 (k + 1)).toNat +
          2 ^ (8 * (k + 1)) * hi.toNat := by
      rw [toNat_append_eq, ones_succ_toNat]
      ring
    rw [prefixWordBelow_append]
    calc (hi ++ lo).toNat * (repByte 0x01#8 (k + 1)).toNat
      _ ≡ hi.toNat * (repByte 0x01#8 k).toNat * 2 ^ 8 + lo.toNat * (repByte 0x01#8 (k + 1)).toNat
          [MOD 2 ^ (8 * (k + 1))] := by rw [hprod]; exact Nat.add_mul_mod_self_left _ _ _
      _ ≡ _ [MOD 2 ^ (8 * (k + 1))] := hih.add_right _

/-- Running byte sums below 256 stay in their bytes. -/
theorem prefixWordBelow_lt {w : Nat} (x : BitVec w) {n : Nat} (h : byteSumBelow x n ≤ 255) :
    prefixWordBelow x n < 2 ^ (8 * n) := by
  induction n with
  | zero => exact Nat.one_pos
  | succ n ih =>
    have hn := ih (le_trans (Nat.le_add_right _ _) h)
    have hmul := Nat.mul_le_mul_right (2 ^ (8 * n)) h
    rw [prefixWordBelow, Nat.mul_succ, Nat.pow_add]
    omega

/-- Step 4 adds the bytes up, where they add up to at most 255 (R121, R122). -/
theorem sumNets_count_toNat {k : Nat} (x : BitVec (8 * (k + 1))) (h : byteSumBelow x (k + 1) ≤ 255) :
    (sumNets (repByte 0x01#8 (k + 1)) x).count.toNat = byteSumBelow x (k + 1) := by
  have hlow : prefixWordBelow x k < 2 ^ (8 * k) :=
    prefixWordBelow_lt x (le_trans (Nat.le_add_right _ _) h)
  have hp : (x * repByte 0x01#8 (k + 1)).toNat = prefixWordBelow x (k + 1) := by
    rw [BitVec.toNat_mul, mul_ones_modEq, Nat.mod_eq_of_lt (prefixWordBelow_lt x h)]
  rw [sumNets_count, BitVec.toNat_setWidth, BitVec.toNat_ushiftRight, hp,
    Nat.shiftRight_eq_div_pow, prefixWordBelow, show 8 * (k + 1) - 8 = 8 * k from rfl,
    Nat.add_mul_div_right _ _ (Nat.two_pow_pos _), Nat.div_eq_of_lt hlow, Nat.zero_add,
    Nat.mod_eq_of_lt (by omega)]

/-! ### The count -/

theorem popcntBelow_le {w : Nat} (a : BitVec w) (n : Nat) : popcntBelow a n ≤ n := by
  induction n with
  | zero => exact le_rfl
  | succ n ih => exact Nat.add_le_add ih (Bool.toNat_le _)

theorem popcntBelow_eq_zero_iff {w : Nat} {a : BitVec w} {n : Nat} :
    popcntBelow a n = 0 ↔ ∀ i < n, a.getLsbD i = false := by
  induction n with
  | zero => simp [popcntBelow]
  | succ n ih =>
    rw [popcntBelow, Nat.add_eq_zero_iff, ih, Nat.forall_lt_succ_right]
    simp [bit]

/-- A word counts no 1 bits exactly when it is 0. -/
theorem popcnt_eq_zero_iff {w : Nat} {a : BitVec w} : popcnt a = 0 ↔ a = 0#w := by
  rw [popcnt, popcntBelow_eq_zero_iff]
  constructor
  · exact fun h => BitVec.eq_of_getLsbD_eq fun i hi => by simp [h i hi]
  · rintro rfl; simp

/-- Wherever the count can hold it, the datapath counts the 1 bits of its operand (R92). -/
theorem byteDatapath_count {k : Nat} (v : BitVec (8 * (k + 1))) (hk : 8 * (k + 1) ≤ 255) :
    (byteDatapath (k + 1) v).count.toNat = popcnt v := by
  have hsum := byteSumBelow_byteDatapath_s3 v
  have hle : popcnt v ≤ 8 * (k + 1) := popcntBelow_le v _
  exact (sumNets_count_toNat (byteDatapath (k + 1) v).s3 (by omega)).trans hsum

theorem wordNets32_count (v : Word32) : (wordNets32 v).count.toNat = popcnt v := by
  rw [wordNets32_eq_byteDatapath]
  exact byteDatapath_count (k := 3) v (by decide)

theorem wordNets64_count (v : Word64) : (wordNets64 v).count.toNat = popcnt v := by
  rw [wordNets64_eq_byteDatapath]
  exact byteDatapath_count (k := 7) v (by decide)

/-- A port that holds the number of 1 bits of a word is 0 exactly when the word is. -/
theorem eq_zero_iff_of_toNat_eq_popcnt {w : Nat} {c : Count} {v : BitVec w} (h : c.toNat = popcnt v) :
    c = 0 ↔ v = 0 := by
  rw [← BitVec.toNat_inj, h]
  exact popcnt_eq_zero_iff

/-- Settles O14: where the nets are the datapath's, so is the count. -/
theorem settledCountIsPopulationCount : Obligations.SettledCountIsPopulationCount := by
  rintro s ⟨h32, -, -, -, -, h64, -⟩
  have hc32 : s.popcnt32.count.toNat = popcnt s.popcnt32.v := by
    rw [congrArg WordNets.count h32, wordNets32_count]
  have hc64 : s.popcnt64.count.toNat = popcnt s.popcnt64.v := by
    rw [congrArg WordNets.count h64, wordNets64_count]
  exact ⟨hc32, eq_zero_iff_of_toNat_eq_popcnt hc32, hc64, eq_zero_iff_of_toNat_eq_popcnt hc64⟩

end Sys2Proof.Machine

/-! PROOFS. What the host does around an evaluation (spec/20_memory.md R45 to R48, R51): evaluations of
different operations commute, and host lines form operands of bytes and sums. -/

namespace Sys2Proof.Machine

/-! ### Evaluations of different operations -/

/-- Settles O27: in either order each of the two instances holds the nets of its own operand
(`evaluate_netsOf_congr`), and all else is outside both frames. -/
theorem evaluationsCommute : Obligations.EvaluationsCommute := by
  intro i j x y s hij hx hy
  obtain ⟨-, a, -, -, -, ha, -, hanames, hascript⟩ := evaluate_of_ty s hx
  obtain ⟨-, t, -, -, -, ht, -, htnames, htscript⟩ := evaluate_of_ty a hy
  obtain ⟨-, b, -, -, -, hb, -, hbnames, hbscript⟩ := evaluate_of_ty s hy
  obtain ⟨-, u, -, -, -, hu, -, hunames, huscript⟩ := evaluate_of_ty b hx
  have hnets : ∀ k, u.netsOf k = t.netsOf k := fun k => by
    by_cases hki : k = i
    · subst hki
      rw [evaluate_netsOf_other ht hij, evaluate_netsOf_congr hu ha]
    · rw [evaluate_netsOf_other hu hki]
      by_cases hkj : k = j
      · subst hkj
        exact evaluate_netsOf_congr hb ht
      · rw [evaluate_netsOf_other hb hkj, evaluate_netsOf_other ht hkj, evaluate_netsOf_other ha hki]
  have hut : u = t := State.ext_netsOf hnets (by rw [hunames, hbnames, htnames, hanames])
    (by rw [huscript, hbscript, htscript, hascript])
  exact ⟨a, b, t, ha, ht, hb, hut ▸ hu⟩

/-! ### The words the host forms of bytes -/

/-- A byte is its own lowest byte. -/
theorem field_byte_zero (c : Byte) : field c 8 0 = c := BitVec.extractLsb'_eq_self

/-- Byte k of a little-endian 32-bit word is the k-th byte it is formed of (R46). -/
theorem field_le32 (c0 c1 c2 c3 : Byte) :
    field (le32 c0 c1 c2 c3) 8 0 = c0 ∧ field (le32 c0 c1 c2 c3) 8 1 = c1 ∧
      field (le32 c0 c1 c2 c3) 8 2 = c2 ∧ field (le32 c0 c1 c2 c3) 8 3 = c3 := by
  simp [le32, field_append_zero, field_append_succ, field_byte_zero]

/-- Byte k of a little-endian 64-bit word is the k-th byte it is formed of (R45). -/
theorem field_le64 (c0 c1 c2 c3 c4 c5 c6 c7 : Byte) :
    let x := le64 c0 c1 c2 c3 c4 c5 c6 c7
    field x 8 0 = c0 ∧ field x 8 1 = c1 ∧ field x 8 2 = c2 ∧ field x 8 3 = c3 ∧
      field x 8 4 = c4 ∧ field x 8 5 = c5 ∧ field x 8 6 = c6 ∧ field x 8 7 = c7 := by
  simp [le64, field_append_zero, field_append_succ, field_byte_zero]

/-- A zero-extended byte is the byte under 24 zeros (R47). -/
theorem zext32_eq_append (c : Byte) : zext32 c = 0#24 ++ c := by
  rw [zext32, BitVec.setWidth_eq_append (by decide)]
  rfl

theorem popcnt_zext32 (c : Byte) : popcnt (zext32 c) = popcnt c := by
  rw [zext32_eq_append]
  exact (popcnt_append 0#24 c).trans (by rw [popcnt_eq_zero_iff.2 rfl, Nat.zero_add])

theorem popcnt_le32 (c0 c1 c2 c3 : Byte) :
    popcnt (le32 c0 c1 c2 c3) = popcnt c3 + popcnt c2 + popcnt c1 + popcnt c0 := by
  simp only [le32, popcnt_append]

theorem popcnt_le64 (c0 c1 c2 c3 c4 c5 c6 c7 : Byte) :
    popcnt (le64 c0 c1 c2 c3 c4 c5 c6 c7) = popcnt c7 + popcnt c6 + popcnt c5 + popcnt c4 +
      popcnt c3 + popcnt c2 + popcnt c1 + popcnt c0 := by
  simp only [le64, popcnt_append]

/-! ### Host lines -/

@[simp] theorem Src.readByte_setScript (a : Src) (ls : List Line) (s : State) :
    a.readByte (s.setScript ls) = a.readByte s := by
  rw [Src.readByte, Src.read_setScript, Src.readByte]

/-- A step with a host line next binds the free name it asks for to the value the host makes, and
touches nothing else. -/
theorem step_of_hostLine {s : State} {l : Line} {ls : List Line} {value : State → Except Refusal Value}
    {dst : Nat} {x : Value} (hscript : s.script = l :: ls) (hfree : s.names.lookup dst = none)
    (hline : runLine l = runHostLine dst value) (hvalue : value (s.setScript ls) = .ok x) :
    step s = .next ((s.setScript ls).bindName dst x) := by
  rw [step_of_script_cons hscript, hline]
  exact runHostLine_next_iff.2 ⟨x, hfree, hvalue, rfl⟩

/-- Settles O9: a host line binds the value it makes (`step_of_hostLine`), whose bytes are those of
`field_le32` and `field_le64`. -/
theorem hostLinesFormOperandsAndSums : Obligations.HostLinesFormOperandsAndSums := by
  refine ⟨?zext32, ?le32, ?le64, ?add⟩
  case zext32 =>
    intro s ls dst b c hscript hfree hc
    have hvalue : zext32Line b (s.setScript ls) = .ok (.word32 (zext32 c)) := by
      simp only [zext32Line, Src.readByte_setScript, hc]; rfl
    refine ⟨zext32 c, step_of_hostLine hscript hfree rfl hvalue, ?_, ?_⟩
    · rw [zext32_eq_append]
      exact field_append_zero 0#24 c
    · rw [zext32_eq_append]
      exact BitVec.extractLsb'_append_eq_left
  case le32 =>
    intro s ls dst b0 b1 b2 b3 c0 c1 c2 c3 hscript hfree h0 h1 h2 h3
    have hvalue : le32Line b0 b1 b2 b3 (s.setScript ls) = .ok (.word32 (le32 c0 c1 c2 c3)) := by
      simp only [le32Line, Src.readByte_setScript, h0, h1, h2, h3]; rfl
    exact ⟨_, step_of_hostLine hscript hfree rfl hvalue, field_le32 c0 c1 c2 c3⟩
  case le64 =>
    intro s ls dst b0 b1 b2 b3 b4 b5 b6 b7 c0 c1 c2 c3 c4 c5 c6 c7 hscript hfree h0 h1 h2 h3 h4 h5 h6 h7
    have hvalue : le64Line b0 b1 b2 b3 b4 b5 b6 b7 (s.setScript ls) =
        .ok (.word64 (le64 c0 c1 c2 c3 c4 c5 c6 c7)) := by
      simp only [le64Line, Src.readByte_setScript, h0, h1, h2, h3, h4, h5, h6, h7]; rfl
    exact ⟨_, step_of_hostLine hscript hfree rfl hvalue, field_le64 c0 c1 c2 c3 c4 c5 c6 c7⟩
  case add =>
    intro s ls dst y z a b hscript hfree hy hz
    have hvalue : addLine y z (s.setScript ls) = .ok (.total (a.toNat + b.toNat)) := by
      simp only [addLine, Src.read_setScript, hy, hz]; rfl
    exact step_of_hostLine hscript hfree rfl hvalue

end Sys2Proof.Machine

/-! PROOFS. How the host feeds a byte buffer (spec/20_memory.md R44 to R50): the evaluations are those of
its 8-byte chunks and its tail, and their results add up to the counts of its bytes. -/

namespace Sys2Proof.Machine

/-! ### The evaluations made for a buffer -/

theorem feedBytes_eq_map (bytes : List Byte) :
    feedBytes bytes = bytes.map fun c => (.popcnt32, .word32 (zext32 c)) := by
  induction bytes with
  | nil => rfl
  | cons c cs ih => rw [feedBytes, ih, List.map_cons]

/-- Fewer than 4 bytes are fed one by one (R47). -/
theorem feedTail_of_length_lt {bytes : List Byte} (h : bytes.length < 4) :
    feedTail bytes = feedBytes bytes := by
  unfold feedTail
  split
  · simp only [List.length_cons] at h
    omega
  · rfl

/-- Fewer than 8 bytes are fed as a tail (R46, R47). -/
theorem feed_of_length_lt {bytes : List Byte} (h : bytes.length < 8) : feed bytes = feedTail bytes := by
  unfold feed
  split
  · simp only [List.length_cons] at h
    omega
  · rfl

/-- A property of all buffers, after the way they are fed: it holds of those too short for a chunk, and
a chunk of 8 bytes in front keeps it. -/
theorem bufferInduction {P : List Byte → Prop} (tail : ∀ bytes, bytes.length < 8 → P bytes)
    (chunk : ∀ c0 c1 c2 c3 c4 c5 c6 c7 cs, P cs → P (c0 :: c1 :: c2 :: c3 :: c4 :: c5 :: c6 :: c7 :: cs))
    (bytes : List Byte) : P bytes := by
  induction bytes using feed.induct with
  | case1 c0 c1 c2 c3 c4 c5 c6 c7 cs ih => exact chunk c0 c1 c2 c3 c4 c5 c6 c7 cs ih
  | case2 bytes hshort =>
    refine tail bytes (Nat.lt_of_not_le fun hlen => ?_)
    match bytes, hlen with
    | c0 :: c1 :: c2 :: c3 :: c4 :: c5 :: c6 :: c7 :: cs, _ => exact hshort _ _ _ _ _ _ _ _ _ rfl

/-- `ws`, `ts` and `bs` are the evaluations of the 8-byte chunks of a buffer, of its 4-byte chunk and of
its last single bytes (R45 to R47). -/
structure FeedParts (bytes : List Byte) (ws ts bs : List (Instr × Value)) : Prop where
  words_length : ws.length = bytes.length / 8
  half_length : ts.length = if 4 ≤ bytes.length % 8 then 1 else 0
  singles_length : bs.length = bytes.length % 4
  words : ∀ q < ws.length, ∃ x : Word64, ws[q]? = some (.popcnt64, .word64 x) ∧
    ∀ k < 8, bytes[8 * q + k]? = some (field x 8 k)
  half : ∀ e ∈ ts, ∃ x : Word32, e = (.popcnt32, .word32 x) ∧
    ∀ k < 4, bytes[8 * (bytes.length / 8) + k]? = some (field x 8 k)
  singles : ∀ r < bs.length, ∃ c : Byte, bs[r]? = some (.popcnt32, .word32 (zext32 c)) ∧
    bytes[4 * (bytes.length / 4) + r]? = some c

/-- Fewer than 4 bytes are single bytes only. -/
theorem feedParts_singles {bytes : List Byte} (h : bytes.length < 4) :
    FeedParts bytes [] [] (feedBytes bytes) where
  words_length := by simp only [List.length_nil]; omega
  half_length := by rw [if_neg (by omega)]; rfl
  singles_length := by rw [feedBytes_eq_map, List.length_map, Nat.mod_eq_of_lt h]
  words := by simp
  half := by simp
  singles r hr := by
    rw [feedBytes_eq_map, List.length_map] at hr
    refine ⟨bytes[r], ?_, ?_⟩
    · simp [feedBytes_eq_map, hr]
    · simp [Nat.div_eq_of_lt h, hr]

/-- A 4-byte chunk before fewer than 4 bytes is the one POPCNT32 of a whole word. -/
theorem FeedParts.half_cons {c0 c1 c2 c3 : Byte} {cs : List Byte} {bs : List (Instr × Value)}
    (hlen : cs.length < 4) (h : FeedParts cs [] [] bs) :
    FeedParts (c0 :: c1 :: c2 :: c3 :: cs) [] [(.popcnt32, .word32 (le32 c0 c1 c2 c3))] bs where
  words_length := by simp only [List.length_nil, List.length_cons]; omega
  half_length := by simp only [List.length_cons]; rw [if_pos (by omega)]; rfl
  singles_length := by simp only [List.length_cons, h.singles_length]; omega
  words := by simp
  half e he := by
    obtain ⟨h0, h1, h2, h3⟩ := field_le32 c0 c1 c2 c3
    have hdiv : (cs.length + 4) / 8 = 0 := by omega
    refine ⟨le32 c0 c1 c2 c3, List.mem_singleton.1 he, fun k hk => ?_⟩
    interval_cases k <;> simp [hdiv, h0, h1, h2, h3]
  singles r hr := by
    obtain ⟨c, hc, hr⟩ := h.singles r hr
    have hpos : 4 * ((cs.length + 4) / 4) + r = 4 * (cs.length / 4) + r + 4 := by omega
    exact ⟨c, hc, by simpa [hpos] using hr⟩

/-- An 8-byte chunk in front is one more POPCNT64, and moves the rest by 8 bytes. -/
theorem FeedParts.word_cons {c0 c1 c2 c3 c4 c5 c6 c7 : Byte} {cs : List Byte}
    {ws ts bs : List (Instr × Value)} (h : FeedParts cs ws ts bs) :
    FeedParts (c0 :: c1 :: c2 :: c3 :: c4 :: c5 :: c6 :: c7 :: cs)
      ((.popcnt64, .word64 (le64 c0 c1 c2 c3 c4 c5 c6 c7)) :: ws) ts bs where
  words_length := by simp only [List.length_cons, h.words_length]; omega
  half_length := by
    have hmod : (cs.length + 8) % 8 = cs.length % 8 := Nat.add_mod_right _ _
    simp only [List.length_cons, Nat.add_assoc, Nat.reduceAdd, hmod, h.half_length]
  singles_length := by simp only [List.length_cons, h.singles_length]; omega
  words q hq := by
    cases q with
    | zero =>
      obtain ⟨h0, h1, h2, h3, h4, h5, h6, h7⟩ := field_le64 c0 c1 c2 c3 c4 c5 c6 c7
      refine ⟨_, rfl, fun k hk => ?_⟩
      interval_cases k <;> simp [h0, h1, h2, h3, h4, h5, h6, h7]
    | succ q =>
      obtain ⟨x, hx, hbytes⟩ := h.words q (Nat.lt_of_succ_lt_succ hq)
      refine ⟨x, hx, fun k hk => ?_⟩
      have hpos : 8 * (q + 1) + k = 8 * q + k + 8 := by omega
      simpa [hpos] using hbytes k hk
  half e he := by
    obtain ⟨x, hx, hbytes⟩ := h.half e he
    refine ⟨x, hx, fun k hk => ?_⟩
    have hpos : 8 * ((cs.length + 8) / 8) + k = 8 * (cs.length / 8) + k + 8 := by omega
    simpa [hpos] using hbytes k hk
  singles r hr := by
    obtain ⟨c, hc, hr⟩ := h.singles r hr
    have hpos : 4 * ((cs.length + 8) / 4) + r = 4 * (cs.length / 4) + r + 8 := by omega
    exact ⟨c, hc, by simpa [hpos] using hr⟩

/-- The evaluations of fewer than 8 bytes: at most one 4-byte chunk, then single bytes. -/
theorem exists_feedParts_tail {bytes : List Byte} (h : bytes.length < 8) :
    ∃ ts bs, feedTail bytes = ts ++ bs ∧ FeedParts bytes [] ts bs := by
  obtain hlt | hge := Nat.lt_or_ge bytes.length 4
  · exact ⟨[], _, feedTail_of_length_lt hlt, feedParts_singles hlt⟩
  · match bytes, h, hge with
    | c0 :: c1 :: c2 :: c3 :: cs, h, _ =>
      have hcs : cs.length < 4 := Nat.lt_of_add_lt_add_right (n := 4) h
      exact ⟨[_], _, rfl, (feedParts_singles hcs).half_cons hcs⟩

/-- Settles O50: chunk by chunk (`bufferInduction`), down to the tail. -/
theorem feedShape : Obligations.FeedShape := by
  intro bytes
  have hparts : ∃ ws ts bs, feed bytes = ws ++ ts ++ bs ∧ FeedParts bytes ws ts bs := by
    induction bytes using bufferInduction with
    | tail bytes hlen =>
      obtain ⟨ts, bs, hfeed, h⟩ := exists_feedParts_tail hlen
      exact ⟨[], ts, bs, (feed_of_length_lt hlen).trans hfeed, h⟩
    | chunk c0 c1 c2 c3 c4 c5 c6 c7 cs ih =>
      obtain ⟨ws, ts, bs, hfeed, h⟩ := ih
      exact ⟨_ :: ws, ts, bs, congrArg (List.cons _) hfeed, h.word_cons⟩
  obtain ⟨ws, ts, bs, hfeed, h⟩ := hparts
  exact ⟨ws, ts, bs, hfeed, h.words_length, h.half_length, h.singles_length, h.words, h.half, h.singles⟩

/-! ### The sum the host keeps -/

/-- From every state the evaluations `es` all complete, add `n` to the host's sum, and leave the host's
names and script alone. -/
def AddsUpTo (es : List (Instr × Value)) (n : Nat) : Prop :=
  ∀ sum s, ∃ t, accumulate es sum s = some (t, sum + n) ∧ t.names = s.names ∧ t.script = s.script

theorem AddsUpTo.nil : AddsUpTo [] 0 := fun _ s => ⟨s, rfl, rfl, rfl⟩

/-- One more evaluation adds its result, where that does not depend on the state. -/
theorem AddsUpTo.cons {i : Instr} {x : Value} {es : List (Instr × Value)} {m n : Nat}
    (hx : x.ty = operandTy i)
    (hresult : ∀ s t, evaluate i x s = .next t → (t.result i).toNat = m) (hes : AddsUpTo es n) :
    AddsUpTo ((i, x) :: es) (m + n) := by
  intro sum s
  obtain ⟨-, u, -, -, -, hu, -, hunames, huscript⟩ := evaluate_of_ty s hx
  obtain ⟨t, ht, htnames, htscript⟩ := hes (sum + m) u
  refine ⟨t, ?_, htnames.trans hunames, htscript.trans huscript⟩
  simp only [accumulate, hu, hresult s u hu, ht, Nat.add_assoc]

/-- POPCNT32 adds the number of 1 bits of its operand (R92). -/
theorem AddsUpTo.popcnt32_cons {es : List (Instr × Value)} {n : Nat} (v : Word32) (hes : AddsUpTo es n) :
    AddsUpTo ((.popcnt32, .word32 v) :: es) (popcnt v + n) := by
  refine AddsUpTo.cons rfl (fun s t h => ?_) hes
  cases h
  exact wordNets32_count v

/-- POPCNT64 adds the number of 1 bits of its operand (R92). -/
theorem AddsUpTo.popcnt64_cons {es : List (Instr × Value)} {n : Nat} (v : Word64) (hes : AddsUpTo es n) :
    AddsUpTo ((.popcnt64, .word64 v) :: es) (popcnt v + n) := by
  refine AddsUpTo.cons rfl (fun s t h => ?_) hes
  cases h
  exact wordNets64_count v

/-- The number of 1 bits of a buffer: the sum of its bytes' own counts (R44). -/
abbrev bufferOnes (bytes : List Byte) : Nat := (bytes.map popcnt).sum

theorem feedBytes_addsUpTo (bytes : List Byte) : AddsUpTo (feedBytes bytes) (bufferOnes bytes) := by
  induction bytes with
  | nil => exact AddsUpTo.nil
  | cons c cs ih =>
    have h := ih.popcnt32_cons (zext32 c)
    rwa [popcnt_zext32] at h

theorem feedTail_addsUpTo (bytes : List Byte) : AddsUpTo (feedTail bytes) (bufferOnes bytes) := by
  unfold feedTail
  split
  next c0 c1 c2 c3 cs =>
    have h := (feedBytes_addsUpTo cs).popcnt32_cons (le32 c0 c1 c2 c3)
    have hones : bufferOnes (c0 :: c1 :: c2 :: c3 :: cs) =
        popcnt (le32 c0 c1 c2 c3) + bufferOnes cs := by
      simp only [bufferOnes, List.map_cons, List.sum_cons, popcnt_le32]
      omega
    rwa [hones]
  next => exact feedBytes_addsUpTo bytes

theorem feed_addsUpTo (bytes : List Byte) : AddsUpTo (feed bytes) (bufferOnes bytes) := by
  induction bytes using bufferInduction with
  | tail bytes hlen =>
    rw [feed_of_length_lt hlen]
    exact feedTail_addsUpTo bytes
  | chunk c0 c1 c2 c3 c4 c5 c6 c7 cs ih =>
    have h := ih.popcnt64_cons (le64 c0 c1 c2 c3 c4 c5 c6 c7)
    have hones : bufferOnes (c0 :: c1 :: c2 :: c3 :: c4 :: c5 :: c6 :: c7 :: cs) =
        popcnt (le64 c0 c1 c2 c3 c4 c5 c6 c7) + bufferOnes cs := by
      simp only [bufferOnes, List.map_cons, List.sum_cons, popcnt_le64]
      omega
    rwa [hones]

/-- Settles O49: the sum starts at 0 and the feed adds the bytes' counts (`feed_addsUpTo`). -/
theorem bufferCountIsReferenceCount : Obligations.BufferCountIsReferenceCount := by
  intro bytes s
  have h := feed_addsUpTo bytes 0 s
  rwa [Nat.zero_add] at h

/-- Every count of a buffer is the number of its 1 bits. -/
theorem countBuffer_snd (bytes : List Byte) (s : State) :
    (countBuffer bytes s).map Prod.snd = some (bufferOnes bytes) := by
  obtain ⟨t, ht, -⟩ := bufferCountIsReferenceCount bytes s
  rw [ht, Option.map_some]

theorem eq_bufferOnes_of_countBuffer {bytes : List Byte} {s t : State} {n : Nat}
    (h : countBuffer bytes s = some (t, n)) : n = bufferOnes bytes := by
  have hsnd := countBuffer_snd bytes s
  rw [h] at hsnd
  exact Option.some.inj hsnd

theorem bufferOnes_append (a b : List Byte) : bufferOnes (a ++ b) = bufferOnes a + bufferOnes b := by
  rw [bufferOnes, List.map_append, List.sum_append]

theorem bufferOnes_le (bytes : List Byte) : bufferOnes bytes ≤ 8 * bytes.length := by
  induction bytes with
  | nil => exact le_rfl
  | cons c cs ih =>
    have hc : popcnt c ≤ 8 := popcntBelow_le c 8
    simp only [bufferOnes, List.map_cons, List.sum_cons, List.length_cons] at ih ⊢
    omega

/-- Bytes 0xFF reach the bound. -/
theorem bufferOnes_replicate_ones (n : Nat) : bufferOnes (List.replicate n 0xFF) = n * 8 := by
  have hones : popcnt (0xFF : Byte) = 8 := by decide
  rw [bufferOnes, List.map_replicate, hones, List.sum_replicate, smul_eq_mul]

/-- Settles O51: a count is the number of 1 bits of the buffer (`eq_bufferOnes_of_countBuffer`), which is
a sum over its bytes. -/
theorem bufferCountLinear : Obligations.BufferCountLinear := by
  refine ⟨?linear, ?bounded, ?boundaries⟩
  case linear =>
    intro a b s t u v m n k ha hb hab
    rw [eq_bufferOnes_of_countBuffer ha, eq_bufferOnes_of_countBuffer hb,
      eq_bufferOnes_of_countBuffer hab, bufferOnes_append]
  case bounded =>
    intro bytes s t n h
    rw [eq_bufferOnes_of_countBuffer h]
    exact bufferOnes_le bytes
  case boundaries =>
    intro s
    exact ⟨countBuffer_snd [] s,
      (countBuffer_snd _ s).trans (congrArg some (bufferOnes_replicate_ones 16)),
      (countBuffer_snd _ s).trans (congrArg some (bufferOnes_replicate_ones 32))⟩

end Sys2Proof.Machine

/-! PROOFS. Identifiers and their encoding (spec/30_encoding.md R72 to R74, R78, R80): decode and encode
agree on one identifier, on a list of them and on a well-formed script. -/

namespace Sys2Proof

/-! ### One identifier -/

theorem identifier_statement (i : Instr) : Laws.Identifier.Statement i := by
  cases i
  exacts [Laws.Identifier.popcnt32, Laws.Identifier.pairsum32, Laws.Identifier.nibsum32,
    Laws.Identifier.bytesum32, Laws.Identifier.hsum32, Laws.Identifier.popcnt64,
    Laws.Identifier.pairsum64, Laws.Identifier.nibsum64, Laws.Identifier.bytesum64,
    Laws.Identifier.hsum64]

@[simp] theorem decode_encode (i : Instr) : decode (encode i) = .ok i := by
  obtain ⟨hdecode, -, -⟩ := identifier_statement i
  exact hdecode

theorem decode_eq_ok_iff {c : Opid} {i : Instr} : decode c = .ok i ↔ c = encode i := by
  obtain ⟨-, honly, -⟩ := identifier_statement i
  exact ⟨honly c, fun h => h ▸ decode_encode i⟩

/-- An identifier is refused only by its own name, exactly when its `fn` is above 4 (R74). -/
theorem decode_eq_error_iff {c d : Opid} :
    decode c = .error (.unassigned d) ↔ c = d ∧ c.extractLsb' 0 3 > 4#3 := by
  decide +revert

/-- The words of the opcode table read as their identifiers do. -/
theorem decodeTableWord_eq_some_iff {nbits w : Nat} {i : Instr} :
    decodeTableWord nbits w = some i ↔ ∃ c, opidOfTableWord w = some c ∧ decode c = .ok i := by
  unfold decodeTableWord
  cases opidOfTableWord w with
  | none => simp
  | some c => cases h : decode c <;> simp [h]

@[simp] theorem opidOfTableWord_toNat (c : Opid) : opidOfTableWord c.toNat = some c := by
  rw [opidOfTableWord, if_pos c.isLt, BitVec.ofNat_toNat, BitVec.setWidth_eq]

/-- Settles O1: the assigned identifiers are those of `encode`, the others have `fn` above 4. -/
theorem identifiersFollowTheTable : Obligations.IdentifiersFollowTheTable := by
  have hunassigned : ∀ c ∈ [0b0101#4, 0b0110#4, 0b0111#4, 0b1101#4, 0b1110#4, 0b1111#4],
      decode c = .error (.unassigned c) := by decide
  exact ⟨decode_encode .popcnt32, decode_encode .pairsum32, decode_encode .nibsum32,
    decode_encode .bytesum32, decode_encode .hsum32, decode_encode .popcnt64,
    decode_encode .pairsum64, decode_encode .nibsum64, decode_encode .bytesum64,
    decode_encode .hsum64, hunassigned, fun i nbits => ⟨decode_encode i,
      decodeTableWord_eq_some_iff.2 ⟨encode i, opidOfTableWord_toNat _, decode_encode i⟩⟩⟩

/-! ### A list of identifiers -/

/-- An assigned identifier in front adds its operation, or leaves the refusal of the rest. -/
theorem decodeAll_encode_cons (i : Instr) (cs : List Opid) :
    decodeAll (encode i :: cs) = (decodeAll cs).map (List.cons i) := by
  rw [decodeAll, decode_encode]
  cases decodeAll cs <;> rfl

/-- The list is refused for an unassigned identifier in front. -/
theorem decodeAll_cons_of_error {c : Opid} {r : DecodeRefusal} (cs : List Opid)
    (h : decode c = .error r) : decodeAll (c :: cs) = .error r := by
  rw [decodeAll, h]

theorem decodeAll_encodeAll_append (is : List Instr) (cs : List Opid) :
    decodeAll (encodeAll is ++ cs) = (decodeAll cs).map (is ++ ·) := by
  induction is with
  | nil => cases h : decodeAll cs <;> simp [encodeAll, h, Except.map]
  | cons i is ih =>
    rw [encodeAll, List.cons_append, decodeAll_encode_cons, ih]
    cases decodeAll cs <;> rfl

@[simp] theorem decodeAll_encodeAll (is : List Instr) : decodeAll (encodeAll is) = .ok is := by
  have h := decodeAll_encodeAll_append is []
  simpa [decodeAll, Except.map] using h

/-- Every list of identifiers is an encoding, or one up to its first unassigned identifier. -/
theorem exists_encodeAll_prefix (cs : List Opid) :
    ∃ is, cs = encodeAll is ∨
      ∃ c rest, cs = encodeAll is ++ c :: rest ∧ decode c = .error (.unassigned c) := by
  induction cs with
  | nil => exact ⟨[], .inl rfl⟩
  | cons c cs ih =>
    cases h : decode c with
    | error r =>
      cases r with
      | unassigned d =>
        obtain ⟨rfl, -⟩ := decode_eq_error_iff.1 h
        exact ⟨[], .inr ⟨c, cs, rfl, h⟩⟩
    | ok i =>
      obtain rfl := decode_eq_ok_iff.1 h
      obtain ⟨is, rfl | ⟨d, rest, rfl, hd⟩⟩ := ih
      · exact ⟨i :: is, .inl rfl⟩
      · exact ⟨i :: is, .inr ⟨d, rest, rfl, hd⟩⟩

/-- Reading an encoding up to an unassigned identifier is refused for that one. -/
theorem decodeAll_of_first_unassigned {c : Opid} (is : List Instr) (rest : List Opid)
    (h : decode c = .error (.unassigned c)) :
    decodeAll (encodeAll is ++ c :: rest) = .error (.unassigned c) := by
  rw [decodeAll_encodeAll_append, decodeAll_cons_of_error rest h]
  rfl

theorem decodeAll_eq_ok_iff {cs : List Opid} {is : List Instr} :
    decodeAll cs = .ok is ↔ cs = encodeAll is := by
  refine ⟨fun h => ?_, fun h => h ▸ decodeAll_encodeAll is⟩
  obtain ⟨js, rfl | ⟨c, rest, rfl, hc⟩⟩ := exists_encodeAll_prefix cs
  · rw [decodeAll_encodeAll] at h
    cases h; rfl
  · rw [decodeAll_of_first_unassigned js rest hc] at h
    cases h

theorem decodeAll_eq_error_iff {cs : List Opid} {c : Opid} :
    decodeAll cs = .error (.unassigned c) ↔
      ∃ is rest, cs = encodeAll is ++ c :: rest ∧ c.extractLsb' 0 3 > 4#3 := by
  constructor
  · intro h
    obtain ⟨is, rfl | ⟨d, rest, rfl, hd⟩⟩ := exists_encodeAll_prefix cs
    · rw [decodeAll_encodeAll] at h
      cases h
    · rw [decodeAll_of_first_unassigned is rest hd] at h
      cases h
      exact ⟨is, rest, rfl, (decode_eq_error_iff.1 hd).2⟩
  · rintro ⟨is, rest, rfl, hfn⟩
    exact decodeAll_of_first_unassigned is rest (decode_eq_error_iff.2 ⟨rfl, hfn⟩)

end Sys2Proof

namespace Sys2Proof.Machine

/-! ### A well-formed script -/

theorem Line.wellFormed_iff {env : TypeEnv} {l : Line} :
    l.wellFormed env = true ↔ nameFree env l.dst = true ∧ l.sourcesFit env = true := by
  rw [Line.wellFormed, Bool.and_eq_true]

/-- A script is well-formed where its first line is and binds a name of some kind, and the rest is
where that name is bound too. -/
theorem scriptWellFormed_cons_iff {env : TypeEnv} {l : Line} {ls : List Line} :
    scriptWellFormed env (l :: ls) = true ↔ l.wellFormed env = true ∧
      ∃ t, l.ty? = some t ∧ scriptWellFormed ((l.dst, t) :: env) ls = true := by
  rw [scriptWellFormed, Bool.and_eq_true]
  cases l.ty? <;> simp

/-- An operation line binds a name of some kind exactly when its identifier is assigned (R73, R74). -/
theorem Line.op_ty?_eq_some_iff {dst : Nat} {c : Opid} {a : Src} {t : Ty} :
    (Line.op dst c a).ty? = some t ↔ ∃ i, decode c = .ok i ∧ resultTy i = t := by
  rw [Line.ty?]
  cases decode c <;> simp

/-- A well-formed script encodes as its operations do (R78). -/
theorem encodeScript_of_wellFormed {env : TypeEnv} {ls : List Line}
    (h : scriptWellFormed env ls = true) : encodeScript ls = encodeAll (scriptOps ls) := by
  induction ls generalizing env with
  | nil => rfl
  | cons l ls ih =>
    obtain ⟨-, t, hty, hrest⟩ := scriptWellFormed_cons_iff.1 h
    cases l with
    | op dst c a =>
      obtain ⟨i, hi, -⟩ := Line.op_ty?_eq_some_iff.1 hty
      obtain rfl := decode_eq_ok_iff.1 hi
      simp only [encodeScript, scriptOps, decode_encode, encodeAll, ih hrest]
    | zext32 | le32 | le64 | add => exact ih hrest

/-- Settles O2: a list of identifiers is an encoding or one up to a first unassigned identifier
(`exists_encodeAll_prefix`), and a well-formed script holds no unassigned one. -/
theorem scriptIdentifiersRoundTrip : Obligations.ScriptIdentifiersRoundTrip := by
  refine ⟨decodeAll_encodeAll, fun _ _ => decodeAll_eq_ok_iff, fun _ _ => decodeAll_eq_error_iff, ?_⟩
  intro env ls h
  have hencode := encodeScript_of_wellFormed h
  exact ⟨hencode, decodeAll_eq_ok_iff.2 hencode⟩

end Sys2Proof.Machine

/-! PROOFS. Script lines against the machine (spec/30_encoding.md R74, R77, R78): a line runs exactly
where it is well-formed, what it binds depends only on the values of its sources, and a line that does
not run is refused by the name of its first fault. -/

namespace Sys2Proof.Machine

/-! ### Reading a list of sources, left to right -/

section

variable {α β ε : Type} {g g' : α → Except ε β} {a : α} {as : List α} {bs : List β}

theorem mapM_cons_eq_ok_iff :
    (a :: as).mapM g = .ok bs ↔ ∃ b cs, g a = .ok b ∧ as.mapM g = .ok cs ∧ bs = b :: cs := by
  rw [List.mapM_cons]
  cases ha : g a with
  | error e => simp [bind, Except.bind]
  | ok b => cases has : as.mapM g <;> simp [bind, Except.bind, pure, Except.pure, eq_comm]

/-- Reading a list succeeds exactly when reading each of its members does. -/
theorem exists_mapM_eq_ok_iff : (∃ bs, as.mapM g = .ok bs) ↔ ∀ a ∈ as, ∃ b, g a = .ok b := by
  induction as with
  | nil => simp [pure, Except.pure]
  | cons a as ih =>
    simp only [List.forall_mem_cons, ← ih, mapM_cons_eq_ok_iff]
    constructor
    · rintro ⟨-, b, cs, hb, hcs, -⟩
      exact ⟨⟨b, hb⟩, cs, hcs⟩
    · rintro ⟨⟨b, hb⟩, cs, hcs⟩
      exact ⟨b :: cs, b, cs, hb, hcs, rfl⟩

/-- Where each member reads as before, so does the list. -/
theorem mapM_eq_ok_of_imp (hg : ∀ a b, g a = .ok b → g' a = .ok b) (h : as.mapM g = .ok bs) :
    as.mapM g' = .ok bs := by
  induction as generalizing bs with
  | nil => exact h
  | cons a as ih =>
    obtain ⟨b, cs, hb, hcs, rfl⟩ := mapM_cons_eq_ok_iff.1 h
    exact mapM_cons_eq_ok_iff.2 ⟨b, cs, hg a b hb, ih hcs, rfl⟩

/-- Reading a list stops at the first member that is refused. -/
theorem mapM_append_cons_eq_error {before after : List α} {e : ε}
    (hbefore : ∀ a ∈ before, ∃ b, g a = .ok b) (ha : g a = .error e) :
    (before ++ a :: after).mapM g = .error e := by
  obtain ⟨bs, hbs⟩ := exists_mapM_eq_ok_iff.2 hbefore
  rw [List.mapM_append, hbs, List.mapM_cons, ha]
  rfl

theorem map_eq_ok_iff {f : α → β} {m : Except ε α} {b : β} :
    f <$> m = .ok b ↔ ∃ a, m = .ok a ∧ f a = b := by
  cases m <;> simp [Functor.map, Except.map]

end

/-! ### Host lines -/

/-- A source whose value is taken as `conv` takes it. -/
def Src.readVia {α : Type} (conv : Value → Except Refusal α) (a : Src) (s : State) : Except Refusal α :=
  a.read s >>= conv

theorem Src.readVia_ok_iff {α : Type} {conv : Value → Except Refusal α} {a : Src} {s : State} {c : α} :
    a.readVia conv s = .ok c ↔ ∃ x, a.read s = .ok x ∧ conv x = .ok c := by
  rw [Src.readVia]
  cases h : a.read s <;> simp [bind, Except.bind]

theorem Src.readVia_asByte (a : Src) (s : State) : a.readVia Value.asByte s = a.readByte s := rfl

theorem Src.read_eq_error_of_unbound {n : Nat} {s : State} (h : s.names.lookup n = none) :
    (Src.name n).read s = .error (.unboundName n) := by
  rw [Src.read, h]

/-- `l` is a host line: it binds what `f` makes of the values of its sources, each taken as `conv` takes
it (R78), and the well-formedness check asks that `conv` take them all. -/
structure HostLine {α : Type} (conv : Value → Except Refusal α) (f : List α → Value) (l : Line) :
    Prop where
  run : runLine l = runHostLine l.dst fun s => f <$> l.sources.mapM fun a => a.readVia conv s
  ty : ∀ cs, l.ty? = some (f cs).ty
  fit : ∀ s : State, l.sourcesFit s.types = true ↔ ∀ a ∈ l.sources, ∃ c, a.readVia conv s = .ok c
  byte : ∀ b, ∃ c, conv (.byte b) = .ok c

theorem hostLine_zext32 (dst : Nat) (b : Src) :
    HostLine Value.asByte (fun cs => .word32 (zext32 (cs.getD 0 0))) (.zext32 dst b) where
  run := congrArg (runHostLine dst) (funext fun s => by simp [zext32Line, Line.sources, Src.readVia_asByte])
  ty _ := rfl
  fit s := by simp [Line.sourcesFit, Line.sources, Src.has_byte_iff, Src.readVia_asByte]
  byte b := ⟨b, rfl⟩

theorem hostLine_le32 (dst : Nat) (b0 b1 b2 b3 : Src) :
    HostLine Value.asByte
      (fun cs => .word32 (le32 (cs.getD 0 0) (cs.getD 1 0) (cs.getD 2 0) (cs.getD 3 0)))
      (.le32 dst b0 b1 b2 b3) where
  run := congrArg (runHostLine dst) (funext fun s => by simp [le32Line, Line.sources, Src.readVia_asByte])
  ty _ := rfl
  fit s := by simp [Line.sourcesFit, Line.sources, Src.has_byte_iff, Src.readVia_asByte, and_assoc]
  byte b := ⟨b, rfl⟩

theorem hostLine_le64 (dst : Nat) (b0 b1 b2 b3 b4 b5 b6 b7 : Src) :
    HostLine Value.asByte
      (fun cs => .word64 (le64 (cs.getD 0 0) (cs.getD 1 0) (cs.getD 2 0) (cs.getD 3 0)
        (cs.getD 4 0) (cs.getD 5 0) (cs.getD 6 0) (cs.getD 7 0)))
      (.le64 dst b0 b1 b2 b3 b4 b5 b6 b7) where
  run := congrArg (runHostLine dst) (funext fun s => by simp [le64Line, Line.sources, Src.readVia_asByte])
  ty _ := rfl
  fit s := by simp [Line.sourcesFit, Line.sources, Src.has_byte_iff, Src.readVia_asByte, and_assoc]
  byte b := ⟨b, rfl⟩

/-- ADD takes its addends at whatever kind (log 8). -/
theorem Src.readVia_ok (a : Src) (s : State) : a.readVia .ok s = a.read s := by
  rw [Src.readVia]
  cases a.read s <;> rfl

theorem hostLine_add (dst : Nat) (y z : Src) :
    HostLine .ok (fun xs => .total ((xs.map Value.toNat).sum)) (.add dst y z) where
  run := congrArg (runHostLine dst) (funext fun s => by simp [addLine, Line.sources, Src.readVia_ok])
  ty _ := rfl
  fit s := by simp [Line.sourcesFit, Line.sources, Src.bound_iff, Src.readVia_ok]
  byte b := ⟨.byte b, rfl⟩

/-- Every line is an operation line or a host line. -/
theorem Line.op_or_hostLine (l : Line) :
    (∃ dst c a, l = .op dst c a) ∨
      ∃ (α : Type) (conv : Value → Except Refusal α) (f : List α → Value), HostLine conv f l := by
  cases l with
  | op dst c a => exact .inl ⟨dst, c, a, rfl⟩
  | zext32 dst b => exact .inr ⟨_, _, _, hostLine_zext32 dst b⟩
  | le32 dst b0 b1 b2 b3 => exact .inr ⟨_, _, _, hostLine_le32 dst b0 b1 b2 b3⟩
  | le64 dst b0 b1 b2 b3 b4 b5 b6 b7 => exact .inr ⟨_, _, _, hostLine_le64 dst b0 b1 b2 b3 b4 b5 b6 b7⟩
  | add dst y z => exact .inr ⟨_, _, _, hostLine_add dst y z⟩

section

variable {α : Type} {conv : Value → Except Refusal α} {f : List α → Value} {l : Line} {s t : State}

/-- A host line that runs binds, to a free name, what it makes of the values of its sources. -/
theorem HostLine.next_iff (hl : HostLine conv f l) : runLine l s = .next t ↔
    s.names.lookup l.dst = none ∧
      ∃ cs, (l.sources.mapM fun a => a.readVia conv s) = .ok cs ∧ t = s.bindName l.dst (f cs) := by
  rw [hl.run, runHostLine_next_iff]
  simp only [map_eq_ok_iff]
  constructor
  · rintro ⟨-, hfree, ⟨cs, hcs, rfl⟩, ht⟩
    exact ⟨hfree, cs, hcs, ht⟩
  · rintro ⟨hfree, cs, hcs, ht⟩
    exact ⟨f cs, hfree, ⟨cs, hcs, rfl⟩, ht⟩

/-- A host line has a first unbound source that it comes to: it is refused for that name. -/
theorem HostLine.refused_of_unbound {before after : List Src} {n : Nat} (hl : HostLine conv f l)
    (hfree : s.names.lookup l.dst = none) (hsources : l.sources = before ++ .name n :: after)
    (hbefore : ∀ a ∈ before, ∃ c, a.readVia conv s = .ok c) (hn : s.names.lookup n = none) :
    runLine l s = .refused (.unboundName n) := by
  have hread : (Src.name n).readVia conv s = .error (.unboundName n) := by
    rw [Src.readVia, Src.read_eq_error_of_unbound hn]
    rfl
  have hvalue := mapM_append_cons_eq_error (after := after) hbefore hread
  rw [← hsources] at hvalue
  rw [hl.run, runHostLine, freshName_ok_iff.2 hfree]
  simp only [hvalue]
  rfl

end

/-! ### Operation lines -/

/-- What an assigned identifier leaves to check: the name, then the source (log 9). -/
theorem fetchOp_of_decode {dst : Nat} {c : Opid} {a : Src} {s : State} {i : Instr} (h : decode c = .ok i) :
    fetchOp dst c a s = (do freshName dst s; let x ← a.read s; return (i, x)) := by
  rw [fetchOp, h]

theorem runOpLine_of_fetch_error {dst : Nat} {c : Opid} {a : Src} {s : State} {r : Refusal}
    (h : fetchOp dst c a s = .error r) : runLine (.op dst c a) s = .refused r := by
  rw [runLine, runOpLine, h]

theorem freshName_of_bound {n : Nat} {s : State} (h : (s.names.lookup n).isSome) :
    freshName n s = .error (.nameTaken n) := by
  obtain ⟨x, hx⟩ := Option.isSome_iff_exists.1 h
  rw [freshName, hx]

/-- An operation is evaluated only on an operand of its width (R77). -/
theorem ty_of_evaluate {i : Instr} {x : Value} {s t : State} (h : evaluate i x s = .next t) :
    x.ty = operandTy i := by
  obtain ⟨d, hdrive, -⟩ := evaluate_next_iff.1 h
  rw [← State.operand_of_drive hdrive, State.operand_ty]

theorem evaluate_script {i : Instr} {x : Value} {s t : State} (h : evaluate i x s = .next t) :
    t.script = s.script := by
  obtain ⟨-, u, -, -, -, hu, -, -, hscript⟩ := evaluate_of_ty s (ty_of_evaluate h)
  cases hu.symm.trans h
  exact hscript

/-- The check asks of an operation line that its identifier be assigned and its source have the
operation's width. -/
theorem Line.op_sourcesFit_iff {env : TypeEnv} {dst : Nat} {c : Opid} {a : Src} :
    (Line.op dst c a).sourcesFit env = true ↔
      ∃ i, decode c = .ok i ∧ a.has env (operandTy i) = true := by
  rw [Line.sourcesFit]
  cases decode c <;> simp

/-! ### Lines of every kind -/

/-- A line runs exactly where it is well-formed (R74, R77, R78). -/
theorem exists_runLine_next_iff {l : Line} {s : State} :
    (∃ t, runLine l s = .next t) ↔ l.wellFormed s.types = true := by
  rw [Line.wellFormed_iff, nameFree_iff]
  obtain ⟨dst, c, a, rfl⟩ | ⟨α, conv, f, hl⟩ := l.op_or_hostLine
  · simp only [Line.op_sourcesFit_iff, Src.has_iff]
    constructor
    · rintro ⟨t, h⟩
      obtain ⟨i, x, u, hfetch, heval, -⟩ := runOpLine_next_iff.1 h
      obtain ⟨hdecode, hfree, hread⟩ := fetchOp_ok_iff.1 hfetch
      exact ⟨hfree, i, hdecode, x, hread, ty_of_evaluate heval⟩
    · rintro ⟨hfree, i, hdecode, x, hread, hx⟩
      obtain ⟨-, u, -, -, -, heval, -⟩ := evaluate_of_ty s hx
      have hfetch := fetchOp_ok_iff.2 ⟨hdecode, hfree, hread⟩
      exact ⟨_, runOpLine_next_iff.2 ⟨i, x, u, hfetch, heval, rfl⟩⟩
  · rw [hl.fit, ← exists_mapM_eq_ok_iff]
    constructor
    · rintro ⟨t, h⟩
      obtain ⟨hfree, cs, hcs, -⟩ := hl.next_iff.1 h
      exact ⟨hfree, cs, hcs⟩
    · rintro ⟨hfree, cs, hcs⟩
      exact ⟨_, hl.next_iff.2 ⟨hfree, cs, hcs, rfl⟩⟩

/-- A line that runs binds its name to a value of the kind the check knows, and leaves the rest of the
script. -/
theorem runLine_binds {l : Line} {s t : State} (h : runLine l s = .next t) :
    ∃ x, l.ty? = some x.ty ∧ t.names = (l.dst, x) :: s.names ∧ t.script = s.script := by
  obtain ⟨dst, c, a, rfl⟩ | ⟨α, conv, f, hl⟩ := l.op_or_hostLine
  · obtain ⟨i, x, u, hfetch, heval, rfl⟩ := runOpLine_next_iff.1 h
    obtain ⟨hdecode, -, -⟩ := fetchOp_ok_iff.1 hfetch
    refine ⟨u.result i, Line.op_ty?_eq_some_iff.2 ⟨i, hdecode, (State.result_ty i u).symm⟩, ?_, ?_⟩
    · rw [State.bindName_names, evaluate_names heval]; rfl
    · rw [State.bindName_script, evaluate_script heval]
  · obtain ⟨-, cs, -, rfl⟩ := hl.next_iff.1 h
    exact ⟨f cs, hl.ty cs, rfl, rfl⟩

/-- Settles O10: a well-formed line runs (`exists_runLine_next_iff`), and the kind of what it binds is
the one the rest of the script is checked with (`runLine_binds`). -/
theorem wellFormedScriptRunsOn : Obligations.WellFormedScriptRunsOn := by
  intro s hfits
  obtain ⟨hnil, hstay⟩ | ⟨l, ls, hcons, hstep⟩ := step_cases s
  · exact ⟨s, hstay, hfits⟩
  · rw [State.ScriptFits, hcons, scriptWellFormed_cons_iff] at hfits
    obtain ⟨hline, ty, hty, hrest⟩ := hfits
    obtain ⟨t, ht⟩ := exists_runLine_next_iff (s := s.setScript ls).2 hline
    obtain ⟨x, hx, hnames, hscript⟩ := runLine_binds ht
    cases hty.symm.trans hx
    have htypes : t.types = (l.dst, x.ty) :: s.types := by rw [State.types, hnames]; rfl
    refine ⟨t, hstep.trans ht, ?_⟩
    rw [State.ScriptFits, htypes, hscript]
    exact hrest

/-- Settles O11: a line that runs is well-formed (`exists_runLine_next_iff`), and nothing faults. -/
theorem illFormedLineRefused : Obligations.IllFormedLineRefused := by
  intro s l ls hscript hill
  rw [step_of_script_cons hscript]
  cases hrun : runLine l (s.setScript ls) with
  | next t =>
    have hwell := exists_runLine_next_iff.1 ⟨t, hrun⟩
    cases hill.symm.trans hwell
  | fault r => cases r
  | refused r => exact ⟨r, rfl⟩

/-! ### Refusals by name -/

/-- Settles O6: an operation line is refused for its identifier before anything else of it is looked at. -/
theorem unassignedIdentifierRefused : Obligations.UnassignedIdentifierRefused := by
  intro c hc
  have hdecode : decode c = .error (.unassigned c) := by decide +revert
  have hline : ∀ (s : State) (dst : Nat) (src : Src) (ls : List Line), s.script = .op dst c src :: ls →
      step s = .refused (.unassignedOpid c) := by
    intro s dst src ls hscript
    rw [step_of_script_cons hscript]
    exact runOpLine_of_fetch_error (by rw [fetchOp, hdecode])
  refine ⟨hline, fun s nbits => ⟨?_, ?_⟩⟩
  · refine Option.eq_none_iff_forall_ne_some.2 fun i hi => ?_
    obtain ⟨d, hd, hi⟩ := decodeTableWord_eq_some_iff.1 hi
    cases (opidOfTableWord_toNat c).symm.trans hd
    cases hdecode.symm.trans hi
  · have hplaced : (s.withFetchWord nbits c.toNat).script = [heldLine c s] := by
      rw [State.withFetchWord, opidOfTableWord_toNat]; rfl
    exact hline _ _ _ _ hplaced

/-- Settles O7: the operand is read as it is, and driving it is refused for its width. -/
theorem wrongWidthOperandRefused : Obligations.WrongWidthOperandRefused := by
  intro s dst c src ls i x hscript hdecode hfree hread hx
  have hfetch : fetchOp dst c src (s.setScript ls) = .ok (i, x) :=
    fetchOp_ok_iff.2 ⟨hdecode, hfree, by rw [Src.read_setScript, hread]⟩
  rw [step_of_script_cons hscript, runLine, runOpLine, hfetch]
  simp only [evaluate, State.drive_of_ty_ne _ hx]

/-- A line whose name is bound already is refused for it, its identifier being assigned. -/
theorem runLine_of_bound {l : Line} {s : State} (hty : l.ty? ≠ none)
    (hbound : (s.names.lookup l.dst).isSome) : runLine l s = .refused (.nameTaken l.dst) := by
  have hfresh := freshName_of_bound hbound
  obtain ⟨dst, c, a, rfl⟩ | ⟨α, conv, f, hl⟩ := l.op_or_hostLine
  · obtain ⟨t, ht⟩ := Option.ne_none_iff_exists'.1 hty
    obtain ⟨i, hdecode, -⟩ := Line.op_ty?_eq_some_iff.1 ht
    refine runOpLine_of_fetch_error ?_
    rw [fetchOp_of_decode hdecode, show freshName dst s = _ from hfresh]
    rfl
  · rw [hl.run, runHostLine, hfresh]

/-- An operation line with an unbound source is refused for it. -/
theorem runOpLine_of_unbound {dst : Nat} {c : Opid} {n : Nat} {s : State} {i : Instr}
    (hdecode : decode c = .ok i) (hfree : s.names.lookup dst = none) (hn : s.names.lookup n = none) :
    runLine (.op dst c (.name n)) s = .refused (.unboundName n) := by
  refine runOpLine_of_fetch_error ?_
  rw [fetchOp_of_decode hdecode, freshName_ok_iff.2 hfree, Src.read_eq_error_of_unbound hn]
  rfl

/-- Settles O8: the name is checked before the sources (`runLine_of_bound`), and the sources are read
left to right up to the first unbound one (`HostLine.refused_of_unbound`). -/
theorem namesBoundOnceAndBeforeUse : Obligations.NamesBoundOnceAndBeforeUse := by
  refine ⟨?taken, ?unbound, ?addend⟩
  case taken =>
    intro s l ls hscript hty hbound
    rw [step_of_script_cons hscript]
    exact runLine_of_bound hty hbound
  case unbound =>
    intro s l ls before after n hscript hty hfree hsources hbefore hn
    rw [step_of_script_cons hscript]
    obtain ⟨dst, c, a, rfl⟩ | ⟨α, conv, f, hl⟩ := l.op_or_hostLine
    · obtain ⟨t, ht⟩ := Option.ne_none_iff_exists'.1 hty
      obtain ⟨i, hdecode, -⟩ := Line.op_ty?_eq_some_iff.1 ht
      obtain ⟨rfl, rfl, rfl⟩ : before = [] ∧ .name n = a ∧ after = [] := by
        simpa [Line.sources, List.singleton_eq_append_iff] using hsources
      exact runOpLine_of_unbound hdecode hfree hn
    · refine hl.refused_of_unbound hfree hsources (fun a ha => ?_) hn
      obtain ⟨b, hb⟩ := hbefore a ha
      obtain ⟨x, hx, hbyte⟩ := Src.readVia_ok_iff.1 hb
      obtain ⟨c, hc⟩ := hl.byte b
      rw [Value.asByte_ok_iff.1 hbyte] at hx
      exact ⟨c, Src.readVia_ok_iff.2 ⟨.byte b, by rwa [Src.read_setScript], hc⟩⟩
  case addend =>
    intro s dst n y x ls hscript hfree hy hn
    rw [step_of_script_cons hscript]
    refine (hostLine_add dst y (.name n)).refused_of_unbound (before := [y]) hfree rfl ?_ hn
    simp [Src.readVia_ok, hy]

/-- Settles O4: the line placed for a word asks for the operation the word decodes to, on the operand
held, so driving it changes nothing (`State.drive_operand`). -/
theorem stepRunsPlacedTableWord : Obligations.StepRunsPlacedTableWord := by
  intro s nbits w i h
  obtain ⟨c, hword, hdecode⟩ := decodeTableWord_eq_some_iff.1 h
  have hfree : s.names.lookup (freeName s.names) = none := by
    refine List.lookup_eq_none_iff.2 fun b hb => ?_
    exact bne_iff_ne.2 (lt_freeName hb).ne'
  have hplaced : (s.withFetchWord nbits w).script =
      [.op (freeName s.names) c (.lit (s.operand i))] := by
    simp only [State.withFetchWord, hword, Option.getD_some, heldLine, heldOperand, hdecode,
      State.setScript_script]
  obtain ⟨d, t, hdrive, -, hexec, hstep⟩ := stepRunsDecodedOperation _ _ _ _ _ i (s.operand i) hplaced
    hdecode hfree rfl (State.operand_ty i s)
  have hheld : d = s.setScript [] := by
    have hd := State.drive_operand i (s.setScript [])
    rw [State.operand_setScript] at hd
    exact Except.ok.inj (hdrive.symm.trans hd)
  exact ⟨t, freeName s.names, hheld ▸ hexec, hfree, hstep⟩

/-! ### Adjacent lines -/

/-- A source reads the same where more names are bound. -/
theorem Src.read_mono {a : Src} {s s' : State} {x : Value}
    (hsub : ∀ n y, s.names.lookup n = some y → s'.names.lookup n = some y) (h : a.read s = .ok x) :
    a.read s' = .ok x := by
  rw [Src.read_ok_iff] at h ⊢
  exact h.imp_right fun ⟨n, ha, hn⟩ => ⟨n, ha, hsub n x hn⟩

/-- Where more names are bound, the line's own not among them, a line binds the same value. -/
theorem runLine_mono {l : Line} {s s' t : State} {y : Value} (h : runLine l s = .next t)
    (ht : t.names = (l.dst, y) :: s.names)
    (hsub : ∀ n x, s.names.lookup n = some x → s'.names.lookup n = some x)
    (hfree : s'.names.lookup l.dst = none) :
    ∃ t', runLine l s' = .next t' ∧ t'.names = (l.dst, y) :: s'.names := by
  obtain ⟨dst, c, a, rfl⟩ | ⟨α, conv, f, hl⟩ := l.op_or_hostLine
  · obtain ⟨i, x, u, hfetch, heval, rfl⟩ := runOpLine_next_iff.1 h
    obtain ⟨hdecode, -, hread⟩ := fetchOp_ok_iff.1 hfetch
    obtain ⟨-, u', -, -, -, heval', -⟩ := evaluate_of_ty s' (ty_of_evaluate heval)
    have hfetch' : fetchOp dst c a s' = .ok (i, x) :=
      fetchOp_ok_iff.2 ⟨hdecode, hfree, Src.read_mono hsub hread⟩
    have hresult : u'.result i = u.result i :=
      State.result_eq_of_netsOf_eq (evaluate_netsOf_congr heval' heval)
    obtain rfl : u.result i = y := by simpa [Line.dst, evaluate_names heval] using ht
    refine ⟨_, runOpLine_next_iff.2 ⟨i, x, u', hfetch', heval', rfl⟩, ?_⟩
    rw [State.bindName_names, evaluate_names heval', hresult]; rfl
  · obtain ⟨-, cs, hcs, rfl⟩ := hl.next_iff.1 h
    obtain rfl : f cs = y := by simpa using ht
    have hmono (a : Src) (c : α) (hc : a.readVia conv s = .ok c) : a.readVia conv s' = .ok c := by
      obtain ⟨x, hx, hconv⟩ := Src.readVia_ok_iff.1 hc
      exact Src.readVia_ok_iff.2 ⟨x, Src.read_mono hsub hx, hconv⟩
    exact ⟨_, hl.next_iff.2 ⟨hfree, cs, mapM_eq_ok_of_imp hmono hcs, rfl⟩, rfl⟩

/-- A name is free after a binding exactly when it was before, and is not the name bound. -/
theorem lookup_cons_eq_none_iff {ns : List (Nat × Value)} {m n : Nat} {x : Value} :
    ((m, x) :: ns).lookup n = none ↔ n ≠ m ∧ ns.lookup n = none := by
  by_cases h : n = m
  · simp [h]
  · simp [List.lookup_cons, beq_false_of_ne h, h]

/-- Binding a free name keeps what the other names are bound to. -/
theorem lookup_cons_of_free {ns : List (Nat × Value)} {m n : Nat} {x y : Value}
    (hm : ns.lookup m = none) (h : ns.lookup n = some y) : ((m, x) :: ns).lookup n = some y := by
  have hne : n ≠ m := by rintro rfl; cases hm.symm.trans h
  rwa [List.lookup_cons, beq_false_of_ne hne]

/-- Two bindings of different names may be made in either order. -/
theorem lookup_cons_comm {ns : List (Nat × Value)} {m k : Nat} (hmk : m ≠ k) (x y : Value) (n : Nat) :
    ((m, x) :: (k, y) :: ns).lookup n = ((k, y) :: (m, x) :: ns).lookup n := by
  by_cases hn : n = m
  · subst hn
    simp [List.lookup_cons, beq_false_of_ne hmk]
  · simp [List.lookup_cons, beq_false_of_ne hn]

/-- Settles O28: each line binds, after the other, the value it binds before it (`runLine_mono`), and
the two names differ. -/
theorem adjacentLinesCommute : Obligations.AdjacentLinesCommute := by
  intro k l s a t b hk hkl hl
  obtain ⟨hkfree, -⟩ := runLine_next_cases hk
  obtain ⟨hlfree, -⟩ := runLine_next_cases hl
  obtain ⟨hlfree_a, -⟩ := runLine_next_cases hkl
  obtain ⟨x, -, ha, -⟩ := runLine_binds hk
  obtain ⟨y, -, hb, -⟩ := runLine_binds hl
  have hdst : l.dst ≠ k.dst := by
    rw [ha, lookup_cons_eq_none_iff] at hlfree_a
    exact hlfree_a.1
  have hkfree_b : b.names.lookup k.dst = none := by
    rw [hb, lookup_cons_eq_none_iff]
    exact ⟨hdst.symm, hkfree⟩
  obtain ⟨t', hkl', ht⟩ :=
    runLine_mono hl hb (fun _ _ h => ha ▸ lookup_cons_of_free hkfree h) hlfree_a
  obtain ⟨u, hlk, hu⟩ :=
    runLine_mono hk ha (fun _ _ h => hb ▸ lookup_cons_of_free hlfree h) hkfree_b
  cases hkl'.symm.trans hkl
  refine ⟨u, hlk, fun n => ?_⟩
  rw [hu, hb, ht, ha]
  exact lookup_cons_comm hdst.symm x y n

end Sys2Proof.Machine

/-! PROOFS. What the nets of a whole-word operation hold (spec/30_encoding.md R61 to R64): field by field
the counts of the operand's fields after steps 1 to 3, and running byte sums in the product. -/

namespace Sys2Proof.Machine

/-! ### Fields of a word with a low byte -/

theorem field_getLsbD {w : Nat} (a : BitVec w) {g i : Nat} (k : Nat) (h : i < g) :
    (field a g k).getLsbD i = a.getLsbD (g * k + i) := by
  rw [field, BitVec.getLsbD_extractLsb', decide_eq_true h, Bool.true_and]

section

variable {m g q : Nat} (hq : g * q = 8) (hi : BitVec m) (lo : Byte)

include hq

/-- A field that lies in the low byte is that field of the byte. -/
theorem field_append_low {i : Nat} (h : i < q) : field (hi ++ lo) g i = field lo g i := by
  apply BitVec.eq_of_getLsbD_eq
  intro j hj
  have hlt : g * i + j < 8 := by
    have := Nat.mul_le_mul_left g (Nat.succ_le_of_lt h)
    rw [Nat.mul_succ] at this
    omega
  rw [field_getLsbD _ _ hj, field_getLsbD _ _ hj, BitVec.getLsbD_append, if_pos hlt]

/-- The fields above the low byte are those of the rest of the word. -/
theorem field_append_high (i : Nat) : field (hi ++ lo) g (q + i) = field hi g i := by
  apply BitVec.eq_of_getLsbD_eq
  intro j hj
  have hpos : g * (q + i) + j = 8 + (g * i + j) := by rw [Nat.mul_add, hq, Nat.add_assoc]
  rw [field_getLsbD _ _ hj, field_getLsbD _ _ hj, BitVec.getLsbD_append, hpos,
    if_neg (by omega), Nat.add_sub_cancel_left]

end

/-- A relation of the fields of a net to those of the operand: where a low byte goes through on its own,
it holds of every word of whole bytes if it holds of every byte. -/
theorem fields_of_bytes {g q : Nat} (hq : g * q = 8) {R : BitVec g → BitVec g → Prop}
    {net : (k : Nat) → BitVec (8 * k) → BitVec (8 * k)} {byteNet : Byte → Byte}
    (happend : ∀ k (hi : BitVec (8 * k)) (lo : Byte), net (k + 1) (hi ++ lo) = net k hi ++ byteNet lo)
    (hbyte : ∀ b : Byte, ∀ i < q, R (field (byteNet b) g i) (field b g i))
    (k : Nat) (x : BitVec (8 * k)) : ∀ i < q * k, R (field (net k x) g i) (field x g i) := by
  induction k, x using byteInduction with
  | empty => intro i hi; exact absurd hi (Nat.not_lt_zero i)
  | append k hi lo ih =>
    intro i hik
    rw [happend]
    obtain hlt | ⟨j, rfl⟩ := (Nat.lt_or_ge i q).imp_right Nat.exists_eq_add_of_le
    · have hR := hbyte lo i hlt
      rwa [← field_append_low hq (net k hi) (byteNet lo) hlt, ← field_append_low hq hi lo hlt] at hR
    · have hjk : j < q * k := by rw [Nat.mul_succ] at hik; omega
      have hR := ih j hjk
      rwa [← field_append_high hq (net k hi) (byteNet lo) j, ← field_append_high hq hi lo j] at hR

/-! ### Steps 1 to 3 -/

section

variable {k : Nat} (v : BitVec (8 * k))

/-- Each pair of `s1` counts that pair of the operand, and is never 11 (R61). -/
theorem byteDatapath_s1_pairs : ∀ i < 4 * k,
    (field (byteDatapath k v).s1 2 i).toNat = popcnt (field v 2 i) ∧
      field (byteDatapath k v).s1 2 i ≠ 0b11#2 :=
  fields_of_bytes (g := 2) (q := 4) rfl (R := fun a b => a.toNat = popcnt b ∧ a ≠ 0b11#2)
    (net := fun k v => (byteDatapath k v).s1) (fun _ => byteDatapath_append_s1) (by decide) k v

/-- Each nibble of `s2` counts that nibble of the operand, and its top bit is clear (R62). -/
theorem byteDatapath_s2_nibbles : ∀ j < 2 * k,
    (field (byteDatapath k v).s2 4 j).toNat = popcnt (field v 4 j) ∧
      (byteDatapath k v).s2.getLsbD (4 * j + 3) = false := by
  have h := fields_of_bytes (g := 4) (q := 2) rfl
    (R := fun a b => a.toNat = popcnt b ∧ a.getLsbD 3 = false)
    (net := fun k v => (byteDatapath k v).s2) (fun _ => byteDatapath_append_s2) (by decide) k v
  simpa only [field_getLsbD _ _ (show 3 < 4 by decide)] using h

/-- Each byte of `s3` counts that byte of the operand, and its top nibble is clear (R63). -/
theorem byteDatapath_s3_bytes : ∀ j < k,
    (field (byteDatapath k v).s3 8 j).toNat = popcnt (field v 8 j) ∧
      (field (byteDatapath k v).s3 8 j).extractLsb' 4 4 = 0 := by
  have h := fields_of_bytes (g := 8) (q := 1) rfl
    (R := fun a b => a.toNat = popcnt b ∧ a.extractLsb' 4 4 = 0)
    (net := fun k v => (byteDatapath k v).s3) (fun _ => byteDatapath_append_s3) (by decide) k v
  rwa [Nat.one_mul] at h

/-! ### Step 4 -/

/-- The 1 bits below a byte and those of its lowest `n` bits. -/
theorem popcntBelow_add_field {w : Nat} (a : BitVec w) (j : Nat) {n : Nat} (hn : n ≤ 8) :
    popcntBelow a (8 * j + n) = popcntBelow a (8 * j) + popcntBelow (field a 8 j) n := by
  induction n with
  | zero => rfl
  | succ n ih =>
    rw [← Nat.add_assoc, popcntBelow, ih (by omega), popcntBelow, bit, bit, field_getLsbD a j hn,
      Nat.add_assoc]

/-- The lowest bytes of `s3` add up to the 1 bits of the same part of the operand. -/
theorem byteSumBelow_byteDatapath_s3_eq {j : Nat} (hj : j ≤ k) :
    byteSumBelow (byteDatapath k v).s3 j = popcntBelow v (8 * j) := by
  induction j with
  | zero => rfl
  | succ j ih =>
    obtain ⟨hcount, -⟩ := byteDatapath_s3_bytes v j hj
    rw [byteSumBelow, ih (Nat.le_of_succ_le hj), hcount]
    exact (popcntBelow_add_field v j le_rfl).symm

end

/-- Byte j of the running byte sums is the sum of bytes 0..j, where that stays below 256. -/
theorem prefixWordBelow_byte {w : Nat} (x : BitVec w) {n j : Nat} (hj : j < n)
    (h : byteSumBelow x n ≤ 255) :
    prefixWordBelow x n / 2 ^ (8 * j) % 2 ^ 8 = byteSumBelow x (j + 1) := by
  induction n with
  | zero => exact absurd hj (Nat.not_lt_zero j)
  | succ n ih =>
    have hn : byteSumBelow x n ≤ 255 := le_trans (Nat.le_add_right _ _) h
    rw [prefixWordBelow]
    obtain rfl | hlt := Nat.eq_or_lt_of_le (Nat.le_of_lt_succ hj)
    · rw [Nat.add_mul_div_right _ _ (Nat.two_pow_pos _), Nat.div_eq_of_lt (prefixWordBelow_lt x hn),
        Nat.zero_add, Nat.mod_eq_of_lt (show _ < 2 ^ 8 by omega)]
    · obtain ⟨d, rfl⟩ := Nat.exists_eq_add_of_lt hlt
      have hpow : byteSumBelow x (j + d + 1 + 1) * 2 ^ (8 * (j + d + 1)) =
          2 ^ (8 * j) * (2 ^ 8 * (byteSumBelow x (j + d + 1 + 1) * 2 ^ (8 * d))) := by ring
      rw [hpow, Nat.add_mul_div_left _ _ (Nat.two_pow_pos _), Nat.add_mul_mod_self_left, ih hlt hn]

/-- Where the bytes add up to at most 255, the product is their running sums (R64). -/
theorem sumNets_p_toNat {k : Nat} (x : BitVec (8 * k)) (h : byteSumBelow x k ≤ 255) :
    (sumNets (repByte 0x01#8 k) x).p.toNat = prefixWordBelow x k := by
  rw [sumNets_p, BitVec.toNat_mul, mul_ones_modEq, Nat.mod_eq_of_lt (prefixWordBelow_lt x h)]

theorem sumNets_p_prefixSums {k : Nat} (x : BitVec (8 * k)) (h : byteSumBelow x k ≤ 255) :
    PrefixSums x (sumNets (repByte 0x01#8 k) x).p := by
  intro j hj
  rw [Nat.mul_div_cancel_left k (by decide)] at hj
  rw [field, BitVec.extractLsb'_toNat, Nat.shiftRight_eq_div_pow, sumNets_p_toNat x h,
    prefixWordBelow_byte x hj h]

/-- Greater byte sums give a greater word of running sums. -/
theorem prefixWordBelow_mono {w : Nat} {x y : BitVec w} {n : Nat}
    (h : ∀ j ≤ n, byteSumBelow x j ≤ byteSumBelow y j) : prefixWordBelow x n ≤ prefixWordBelow y n := by
  induction n with
  | zero => exact le_rfl
  | succ n ih =>
    exact Nat.add_le_add (ih fun j hj => h j (by omega)) (Nat.mul_le_mul_right _ (h (n + 1) le_rfl))

theorem popcntBelow_allOnes {w n : Nat} (h : n ≤ w) : popcntBelow (BitVec.allOnes w) n = n := by
  induction n with
  | zero => rfl
  | succ n ih =>
    rw [popcntBelow, ih (Nat.le_of_succ_le h), bit, BitVec.getLsbD_allOnes,
      decide_eq_true (Nat.lt_of_succ_le h), Bool.toNat_true]

section

variable {k : Nat} (hk : 8 * k ≤ 255) (v : BitVec (8 * k))

include hk

/-- The bytes of `s3` add up to a number one byte can hold. -/
theorem byteSumBelow_byteDatapath_s3_le : byteSumBelow (byteDatapath k v).s3 k ≤ 255 := by
  rw [byteSumBelow_byteDatapath_s3]
  exact (popcntBelow_le v _).trans hk

/-- Byte j of `p` holds the sum of bytes 0..j of `s3` (R64). -/
theorem byteDatapath_prefixSums : PrefixSums (byteDatapath k v).s3 (byteDatapath k v).p :=
  sumNets_p_prefixSums (byteDatapath k v).s3 (byteSumBelow_byteDatapath_s3_le hk v)

/-- Byte j of `p` counts bits 8j+7..0 of the operand (R64). -/
theorem byteDatapath_p_bytes : ∀ j < k,
    (field (byteDatapath k v).p 8 j).toNat = popcntBelow v (8 * j + 8) := by
  intro j hj
  have hj' : j < 8 * k / 8 := by rwa [Nat.mul_div_cancel_left k (by decide)]
  rw [byteDatapath_prefixSums hk v j hj', byteSumBelow_byteDatapath_s3_eq v hj, Nat.mul_succ]

/-- The operand of all ones has the largest `p` (R64). -/
theorem byteDatapath_p_toNat_le :
    (byteDatapath k v).p.toNat ≤ (byteDatapath k (BitVec.allOnes _)).p.toNat := by
  have hp (x : BitVec (8 * k)) : (byteDatapath k x).p.toNat = prefixWordBelow (byteDatapath k x).s3 k :=
    sumNets_p_toNat (byteDatapath k x).s3 (byteSumBelow_byteDatapath_s3_le hk x)
  rw [hp, hp]
  refine prefixWordBelow_mono fun j hj => ?_
  rw [byteSumBelow_byteDatapath_s3_eq v hj, byteSumBelow_byteDatapath_s3_eq _ hj,
    popcntBelow_allOnes (by omega)]
  exact popcntBelow_le v _

end

theorem wordNets32_p_le (v : Word32) : (wordNets32 v).p ≤ (wordNets32 0xFFFFFFFF#32).p := by
  rw [BitVec.le_def, wordNets32_eq_byteDatapath, wordNets32_eq_byteDatapath]
  exact byteDatapath_p_toNat_le (k := 4) (by decide) v

theorem wordNets64_p_le (v : Word64) : (wordNets64 v).p ≤ (wordNets64 0xFFFFFFFFFFFFFFFF#64).p := by
  rw [BitVec.le_def, wordNets64_eq_byteDatapath, wordNets64_eq_byteDatapath]
  exact byteDatapath_p_toNat_le (k := 8) (by decide) v

/-- Settles O37: both widths are whole bytes, and what holds of every such width is that the fields count
the operand's (`fields_of_bytes`) and the product holds their running sums (`byteDatapath_prefixSums`). -/
theorem netsHoldPackedCounts : Obligations.NetsHoldPackedCounts := by
  have hmax32 : (wordNets32 0xFFFFFFFF#32).p = 0x20181008#32 := by decide
  have hmax64 : (wordNets64 0xFFFFFFFFFFFFFFFF#64).p = 0x4038302820181008#64 := by decide
  refine ⟨fun (v : BitVec (8 * 4)) => ?_, hmax32, fun (v : BitVec (8 * 8)) => ?_, hmax64⟩
  · have hle := hmax32 ▸ wordNets32_p_le v
    rw [wordNets32_eq_byteDatapath] at hle ⊢
    have hk : 8 * 4 ≤ 255 := by decide
    exact ⟨byteDatapath_s1_pairs v, byteDatapath_s2_nibbles v, byteDatapath_s3_bytes v,
      byteDatapath_p_bytes hk v, byteDatapath_prefixSums hk v, hle⟩
  · have hle := hmax64 ▸ wordNets64_p_le v
    rw [wordNets64_eq_byteDatapath] at hle ⊢
    have hk : 8 * 8 ≤ 255 := by decide
    exact ⟨byteDatapath_s1_pairs v, byteDatapath_s2_nibbles v, byteDatapath_s3_bytes v,
      byteDatapath_p_bytes hk v, byteDatapath_prefixSums hk v, hle⟩

end Sys2Proof.Machine

/-! PROOFS. The whole-word operations (spec/40_popcount_word.md R90 to R97, R99): every net and the exact
count, at exec and at the step; the stages in sequence; and what the count obeys, proved of the number of
1 bits at every width. -/

namespace Sys2Proof.Machine

/-! ### The nets of one evaluation -/

/-- Every net of the datapath is its rule's, of the nets before it (R90, R91). -/
theorem wordNets_nets {w : Nat} (m1 m2 m3 h v : BitVec w) :
    let n := wordNets m1 m2 m3 h v
    n.v = v ∧ n.b1 = (v >>> 1) &&& m1 ∧ n.s1 = v - n.b1 ∧
      n.lo2 = n.s1 &&& m2 ∧ n.hi2 = (n.s1 >>> 2) &&& m2 ∧ n.s2 = n.lo2 + n.hi2 ∧
      n.t3 = n.s2 + (n.s2 >>> 4) ∧ n.s3 = n.t3 &&& m3 ∧
      n.p = n.s3 * h ∧ n.count = n.p.extractLsb' (w - 8) 8 :=
  ⟨rfl, rfl, rfl, rfl, rfl, rfl, rfl, rfl, sumNets_p h _, BitVec.setWidth_ushiftRight_eq_extractLsb⟩

/-- Settles O15: the nets are `wordNets_nets` at the constants of width 32, and `wordNets32_count` counts. -/
theorem popcnt32Result : Obligations.Popcnt32Result := by
  refine ⟨rfl, fun s => ⟨_, exec_popcnt32 s, rfl, ?_⟩⟩
  have hcount := wordNets32_count s.popcnt32.v
  have hle : popcnt s.popcnt32.v ≤ 32 := popcntBelow_le _ _
  obtain ⟨hv, hb1, hs1, hlo2, hhi2, hs2, ht3, hs3, hp, hc⟩ :=
    wordNets_nets m1_32 m2_32 m3_32 h_32 s.popcnt32.v
  exact ⟨hv, hb1, hs1, hlo2, hhi2, hs2, ht3, hs3, hp, hc, hcount, hcount.trans_le hle⟩

/-- Settles O16: the nets are `wordNets_nets` at the constants of width 64, and `wordNets64_count` counts. -/
theorem popcnt64Result : Obligations.Popcnt64Result := by
  refine ⟨rfl, fun s => ⟨_, exec_popcnt64 s, rfl, ?_⟩⟩
  have hcount := wordNets64_count s.popcnt64.v
  have hle : popcnt s.popcnt64.v ≤ 64 := popcntBelow_le _ _
  obtain ⟨hv, hb1, hs1, hlo2, hhi2, hs2, ht3, hs3, hp, hc⟩ :=
    wordNets_nets m1_64 m2_64 m3_64 h_64 s.popcnt64.v
  exact ⟨hv, hb1, hs1, hlo2, hhi2, hs2, ht3, hs3, hp, hc, hcount, hcount.trans_le hle⟩

/-! ### The state an evaluation answers -/

@[simp] theorem evaluate_popcnt32 (v : Word32) (s : State) :
    evaluate .popcnt32 (.word32 v) s = .next (s.setPopcnt32 (wordNets32 v)) := rfl
@[simp] theorem evaluate_pairsum32 (v : Word32) (s : State) :
    evaluate .pairsum32 (.word32 v) s = .next (s.setPairsum32 (pairNets32 v)) := rfl
@[simp] theorem evaluate_nibsum32 (v : Word32) (s : State) :
    evaluate .nibsum32 (.word32 v) s = .next (s.setNibsum32 (nibNets32 v)) := rfl
@[simp] theorem evaluate_bytesum32 (v : Word32) (s : State) :
    evaluate .bytesum32 (.word32 v) s = .next (s.setBytesum32 (byteNets32 v)) := rfl
@[simp] theorem evaluate_hsum32 (v : Word32) (s : State) :
    evaluate .hsum32 (.word32 v) s = .next (s.setHsum32 (sumNets32 v)) := rfl
@[simp] theorem evaluate_popcnt64 (v : Word64) (s : State) :
    evaluate .popcnt64 (.word64 v) s = .next (s.setPopcnt64 (wordNets64 v)) := rfl
@[simp] theorem evaluate_pairsum64 (v : Word64) (s : State) :
    evaluate .pairsum64 (.word64 v) s = .next (s.setPairsum64 (pairNets64 v)) := rfl
@[simp] theorem evaluate_nibsum64 (v : Word64) (s : State) :
    evaluate .nibsum64 (.word64 v) s = .next (s.setNibsum64 (nibNets64 v)) := rfl
@[simp] theorem evaluate_bytesum64 (v : Word64) (s : State) :
    evaluate .bytesum64 (.word64 v) s = .next (s.setBytesum64 (byteNets64 v)) := rfl
@[simp] theorem evaluate_hsum64 (v : Word64) (s : State) :
    evaluate .hsum64 (.word64 v) s = .next (s.setHsum64 (sumNets64 v)) := rfl

/-- Settles O29: each stage's operand is the result net of the one before, and the nets of the whole are
the nets of these four stages (`wordNets_eq`). -/
theorem stagesInSequenceEqualTheWhole : Obligations.StagesInSequenceEqualTheWhole := by
  constructor
  · exact fun s v => ⟨_, _, _, _, _, evaluate_pairsum32 v s, evaluate_nibsum32 _ _,
      evaluate_bytesum32 _ _, evaluate_hsum32 _ _, evaluate_popcnt32 v _,
      rfl, wordNets_eq m1_32 m2_32 m3_32 h_32 v⟩
  · exact fun s v => ⟨_, _, _, _, _, evaluate_pairsum64 v s, evaluate_nibsum64 _ _,
      evaluate_bytesum64 _ _, evaluate_hsum64 _ _, evaluate_popcnt64 v _,
      rfl, wordNets_eq m1_64 m2_64 m3_64 h_64 v⟩

/-! ### A step that runs an operation line -/

/-- A step that runs an operation line binds the result of the evaluation it made, whatever is left of
the script. -/
theorem step_binds_result {s : State} {dst : Nat} {c : Opid} {src : Src} {ls : List Line} {i : Instr}
    {x : Value} (hscript : s.script = .op dst c src :: ls) (hdecode : decode c = .ok i)
    (hfree : s.names.lookup dst = none) (hread : src.read s = .ok x) {u : State}
    (heval : evaluate i x (s.setScript ls) = .next u) :
    ∃ t, step s = .next t ∧ t.names = (dst, u.result i) :: s.names := by
  obtain ⟨d, t, hdrive, -, hexec, hstep⟩ :=
    stepRunsDecodedOperation s dst c src ls i x hscript hdecode hfree hread (ty_of_evaluate heval)
  cases (evaluate_next_iff.2 ⟨d, hdrive, hexec⟩).symm.trans heval
  exact ⟨_, hstep, congrArg _ (evaluate_names heval)⟩

/-- Settles O25: the step binds the evaluation's result (`step_binds_result`), the count of its operand. -/
theorem stepCountsExactly : Obligations.StepCountsExactly := by
  constructor
  · intro s dst src ls v hscript hfree hread
    obtain ⟨t, hstep, hnames⟩ :=
      step_binds_result hscript rfl hfree hread (evaluate_popcnt32 v (s.setScript ls))
    exact ⟨t, (wordNets32 v).count, hstep, hnames, wordNets32_count v⟩
  · intro s dst src ls v hscript hfree hread
    obtain ⟨t, hstep, hnames⟩ :=
      step_binds_result hscript rfl hfree hread (evaluate_popcnt64 v (s.setScript ls))
    exact ⟨t, (wordNets64 v).count, hstep, hnames, wordNets64_count v⟩

/-! ### The number of 1 bits of a word, at every width -/

section

variable {w : Nat}

theorem popcntBelow_eq_sum (a : BitVec w) (n : Nat) :
    popcntBelow a n = ∑ i ∈ Finset.range n, bit a i := by
  induction n with
  | zero => rfl
  | succ n ih => rw [popcntBelow, ih, Finset.sum_range_succ]

theorem popcnt_eq_sum (a : BitVec w) : popcnt a = ∑ i : Fin w, bit a i :=
  (popcntBelow_eq_sum a w).trans (Finset.sum_range _)

/-- A permutation of the bit positions only reorders the sum of the bits. -/
theorem popcnt_eq_of_perm (f : Equiv.Perm (Fin w)) {x y : BitVec w}
    (h : ∀ i : Fin w, y.getLsb i = x.getLsb (f i)) : popcnt y = popcnt x := by
  have hbit (i : Fin w) : bit y i = bit x (f i) := congrArg Bool.toNat (h i)
  simp only [popcnt_eq_sum, hbit]
  exact Equiv.sum_comp f fun i => bit x i

/-- Words with no common bit count their bits apart. -/
theorem popcnt_or_of_disjoint {a b : BitVec w} (h : a &&& b = 0#w) :
    popcnt (a ||| b) = popcnt a + popcnt b := by
  have hbit (i : Nat) : bit (a ||| b) i = bit a i + bit b i := by
    have hi : (a.getLsbD i && b.getLsbD i) = false := by
      rw [← BitVec.getLsbD_and, h, BitVec.getLsbD_zero]
    rw [bit, bit, bit, BitVec.getLsbD_or]
    cases ha : a.getLsbD i <;> simp_all
  simp only [popcnt_eq_sum, hbit, Finset.sum_add_distrib]

/-- A word and its complement share the bits of the word of all ones. -/
theorem popcnt_not_add (v : BitVec w) : popcnt (~~~v) + popcnt v = w := by
  rw [← popcnt_or_of_disjoint (BitVec.not_and_self v), BitVec.not_or_self]
  exact popcntBelow_allOnes le_rfl

theorem popcnt_eq_width_iff {v : BitVec w} : popcnt v = w ↔ v = BitVec.allOnes w := by
  have hadd := popcnt_not_add v
  calc popcnt v = w
    _ ↔ popcnt (~~~v) = 0 := by omega
    _ ↔ ~~~v = 0#w := popcnt_eq_zero_iff
    _ ↔ v = BitVec.allOnes w := by rw [← BitVec.not_allOnes, BitVec.not_inj]

theorem popcnt_twoPow {i : Nat} (h : i < w) : popcnt (BitVec.twoPow w i) = 1 := by
  have hbit (j : Fin w) : bit (BitVec.twoPow w i) j = if j = ⟨i, h⟩ then 1 else 0 := by
    by_cases hj : i = j
    · simp [bit, hj]
    · simp [bit, Fin.ext_iff, Ne.symm hj]
  simp only [popcnt_eq_sum, hbit, Finset.sum_ite_eq', Finset.mem_univ, if_true]

/-- Clearing the lowest 1 bit keeps exactly the 1 bits with a 1 bit below them. -/
theorem getLsbD_and_sub_one (v : BitVec w) (i : Nat) :
    (v &&& (v - 1#w)).getLsbD i = (v.getLsbD i && decide (∃ j < i, v.getLsbD j = true)) := by
  rw [BitVec.getLsbD_and, ← BitVec.not_neg, BitVec.getLsbD_not, BitVec.getLsbD_neg]
  cases hv : v.getLsbD i
  · rfl
  · simp [BitVec.lt_of_getLsbD hv]

/-- Clearing the lowest 1 bit takes one 1 bit away. -/
theorem popcnt_and_sub_one {v : BitVec w} (hv : v ≠ 0#w) : popcnt v = popcnt (v &&& (v - 1#w)) + 1 := by
  have hex : ∃ i, v.getLsbD i = true := by
    by_contra hnone
    exact hv (BitVec.eq_of_getLsbD_eq fun i _ => by
      rw [BitVec.getLsbD_zero]; exact Bool.eq_false_iff.2 fun hi => hnone ⟨i, hi⟩)
  obtain ⟨i, hi, hmin⟩ := Nat.findX hex
  have hlt : i < w := BitVec.lt_of_getLsbD hi
  have hdisjoint : (v &&& (v - 1#w)) &&& BitVec.twoPow w i = 0#w := by
    refine BitVec.eq_of_getLsbD_eq fun j _ => ?_
    rw [BitVec.getLsbD_and, getLsbD_and_sub_one, BitVec.getLsbD_twoPow, BitVec.getLsbD_zero]
    by_cases hij : i = j
    · subst hij
      simpa [hlt] using fun _ => hmin
    · simp [hij]
  have hor : (v &&& (v - 1#w)) ||| BitVec.twoPow w i = v := by
    refine BitVec.eq_of_getLsbD_eq fun j _ => ?_
    rw [BitVec.getLsbD_or, getLsbD_and_sub_one, BitVec.getLsbD_twoPow]
    rcases Nat.lt_trichotomy j i with hji | rfl | hij
    · simp [Bool.eq_false_iff.2 (hmin j hji), hji.ne']
    · simp [hlt, hi]
    · have hbelow : ∃ l < j, v.getLsbD l = true := ⟨i, hij, hi⟩
      simp [hbelow, hij.ne]
  calc popcnt v
    _ = popcnt ((v &&& (v - 1#w)) ||| BitVec.twoPow w i) := by rw [hor]
    _ = popcnt (v &&& (v - 1#w)) + 1 := by rw [popcnt_or_of_disjoint hdisjoint, popcnt_twoPow hlt]

/-- Zero-extension adds no 1 bits. -/
theorem popcnt_setWidth {n : Nat} (h : w ≤ n) (a : BitVec w) : popcnt (a.setWidth n) = popcnt a := by
  obtain ⟨d, rfl⟩ := Nat.exists_eq_add_of_le' h
  have happend : a.setWidth (d + w) = 0#d ++ a := by
    apply BitVec.eq_of_toNat_eq
    rw [toNat_append_eq, BitVec.toNat_setWidth_of_le h, BitVec.toNat_ofNat, Nat.zero_mod, Nat.zero_mul,
      Nat.zero_add]
  rw [happend, popcnt_append, popcnt_eq_zero_iff.2 rfl, Nat.zero_add]

/-- 2^k - 1 is the zero-extended word of k ones. -/
theorem popcnt_two_pow_sub_one {k : Nat} (h : k ≤ w) : popcnt (BitVec.ofNat w (2 ^ k - 1)) = k := by
  have hones : BitVec.ofNat w (2 ^ k - 1) = (BitVec.allOnes k).setWidth w := by
    apply BitVec.eq_of_toNat_eq
    rw [BitVec.toNat_ofNat, BitVec.toNat_setWidth, BitVec.toNat_allOnes]
  rw [hones, popcnt_setWidth h]
  exact popcntBelow_allOnes le_rfl

/-! ### A port that holds a count -/

/-- Below or at a power of two, that power's bit is set at the power only. -/
theorem getLsbD_iff_of_toNat_le {c : BitVec w} {j : Nat} (h : c.toNat ≤ 2 ^ j) :
    c.getLsbD j = true ↔ c.toNat = 2 ^ j := by
  obtain hlt | heq := h.lt_or_eq
  · simp [getLsbD_eq_false_of_toNat_lt hlt le_rfl, hlt.ne]
  · simp [← BitVec.testBit_toNat, heq]

/-- A port that holds the number of 1 bits of a word is the width exactly when the word is all ones. -/
theorem eq_width_iff_of_toNat_eq_popcnt {c : Count} {v : BitVec w} (h : c.toNat = popcnt v)
    (hw : w < 2 ^ 8) : c = BitVec.ofNat 8 w ↔ v = BitVec.allOnes w := by
  rw [← BitVec.toNat_inj, h, BitVec.toNat_ofNat, Nat.mod_eq_of_lt hw]
  exact popcnt_eq_width_iff

/-- At a width 2^j, bit j of such a port is set exactly when the word is all ones. -/
theorem top_bit_iff_of_toNat_eq_popcnt {c : Count} {j : Nat} {v : BitVec (2 ^ j)}
    (h : c.toNat = popcnt v) : c.getLsbD j = true ↔ v = BitVec.allOnes (2 ^ j) := by
  have hle : c.toNat ≤ 2 ^ j := h.trans_le (popcntBelow_le v _)
  rw [getLsbD_iff_of_toNat_le hle, h, popcnt_eq_width_iff]

end

/-! ### What the whole-word operations guarantee -/

/-- Settles O30: the count is at most the width, a power of two, and is the width for the word of all ones
only; 2^k - 1 attains k (`popcnt_two_pow_sub_one`). -/
theorem countRange : Obligations.CountRange := by
  refine ⟨fun v => ?_, fun v => ?_, fun k hk => ?_, fun k hk => ?_⟩
  · have hcount := wordNets32_count v
    have hle : (wordNets32 v).count.toNat ≤ 32 := hcount.trans_le (popcntBelow_le v _)
    have hhigh : (wordNets32 v).count.extractLsb' 6 2 = 0 := by
      apply BitVec.eq_of_toNat_eq
      rw [BitVec.extractLsb'_toNat, Nat.shiftRight_eq_div_pow, Nat.div_eq_of_lt (by omega)]
      rfl
    exact ⟨hle, hhigh, top_bit_iff_of_toNat_eq_popcnt (j := 5) hcount,
      eq_width_iff_of_toNat_eq_popcnt hcount (by decide)⟩
  · have hcount := wordNets64_count v
    have hle : (wordNets64 v).count.toNat ≤ 64 := hcount.trans_le (popcntBelow_le v _)
    have hhigh : (wordNets64 v).count.getLsbD 7 = false :=
      getLsbD_eq_false_of_toNat_lt (j := 7) (by omega) le_rfl
    exact ⟨hle, hhigh, top_bit_iff_of_toNat_eq_popcnt (j := 6) hcount,
      eq_width_iff_of_toNat_eq_popcnt hcount (by decide)⟩
  · rw [wordNets32_count, popcnt_two_pow_sub_one hk]
  · rw [wordNets64_count, popcnt_two_pow_sub_one hk]

/-- Settles O33: the number of 1 bits of a word is that of its parts (`popcnt_append`,
`popcnt_or_of_disjoint`). -/
theorem countSplits : Obligations.CountSplits := by
  simp only [Obligations.CountSplits, wordNets32_count, wordNets64_count]
  refine ⟨popcnt_append, fun c0 c1 c2 c3 => ?_, fun c0 c1 c2 c3 c4 c5 c6 c7 => ?_,
    fun a b => popcnt_or_of_disjoint, fun a b => popcnt_or_of_disjoint⟩
  · rw [popcnt_le32]; omega
  · rw [popcnt_le64]; omega

/-- Settles O34, from the same facts of the number of 1 bits: `popcnt_not_add`, `popcnt_eq_width_iff`,
`popcnt_twoPow` and `popcnt_and_sub_one`. -/
theorem countIdentities : Obligations.CountIdentities := by
  refine ⟨fun v => ⟨?_, ?_, ?_, fun hv => ?_⟩, fun i hi => ?_,
    fun v => ⟨?_, ?_, ?_, fun hv => ?_⟩, fun i hi => ?_⟩
  · rw [wordNets32_count, wordNets32_count, popcnt_not_add]
  · exact eq_zero_iff_of_toNat_eq_popcnt (wordNets32_count v)
  · exact eq_width_iff_of_toNat_eq_popcnt (wordNets32_count v) (by decide)
  · rw [wordNets32_count, wordNets32_count]; exact popcnt_and_sub_one hv
  · apply BitVec.eq_of_toNat_eq
    rw [wordNets32_count, ← BitVec.twoPow_eq, popcnt_twoPow hi]
    rfl
  · rw [wordNets64_count, wordNets64_count, popcnt_not_add]
  · exact eq_zero_iff_of_toNat_eq_popcnt (wordNets64_count v)
  · exact eq_width_iff_of_toNat_eq_popcnt (wordNets64_count v) (by decide)
  · rw [wordNets64_count, wordNets64_count]; exact popcnt_and_sub_one hv
  · apply BitVec.eq_of_toNat_eq
    rw [wordNets64_count, ← BitVec.twoPow_eq, popcnt_twoPow hi]
    rfl

/-- Settles O35: the sum of the bits does not depend on their order (`popcnt_eq_of_perm`). -/
theorem countIgnoresBitOrder : Obligations.CountIgnoresBitOrder := by
  refine ⟨fun f x y h => BitVec.eq_of_toNat_eq ?_, fun f x y h => BitVec.eq_of_toNat_eq ?_⟩
  · rw [wordNets32_count, wordNets32_count, popcnt_eq_of_perm f h]
  · rw [wordNets64_count, wordNets64_count, popcnt_eq_of_perm f h]

/-- Settles O36: zero-extension adds no 1 bits (`popcnt_setWidth`). -/
theorem zeroExtensionKeepsCount : Obligations.ZeroExtensionKeepsCount := by
  intro x
  apply BitVec.eq_of_toNat_eq
  rw [wordNets64_count, wordNets32_count, popcnt_setWidth (by decide)]

/-- Settles O31, by evaluation of the datapath on the ten words. -/
theorem knownValues : Obligations.KnownValues := by
  unfold Obligations.KnownValues
  decide

/-- Settles O32: at both widths the operand is the byte's zero-extension. -/
theorem byteOperandsCounted : Obligations.ByteOperandsCounted := by
  intro c
  rw [wordNets32_count, wordNets64_count, popcnt_zext32, popcnt_setWidth (by decide)]
  exact ⟨rfl, rfl⟩

end Sys2Proof.Machine

/-! PROOFS. The lemmas of the reduction tree (spec/41_reduction_tree.md R115 to R135). A field of a word
is a digit of its number; a step that carries out of no field acts on each field apart, at every width. -/

namespace Sys2Proof.Machine

/-! ### A field is a digit of the word's number -/

section

variable {w g : Nat} (x y : BitVec w)

theorem field_toNat (g k : Nat) : (field x g k).toNat = x.toNat / 2 ^ (g * k) % 2 ^ g := by
  rw [field, BitVec.extractLsb'_toNat, Nat.shiftRight_eq_div_pow]

theorem field_and (g k : Nat) : field (x &&& y) g k = field x g k &&& field y g k :=
  BitVec.extractLsb'_and

/-- A field above the top of the word is 0. -/
theorem field_toNat_eq_zero {k : Nat} (h : w ≤ g * k) : (field x g k).toNat = 0 := by
  have hlt : x.toNat < 2 ^ (g * k) := x.isLt.trans_le (Nat.pow_le_pow_right two_pos h)
  rw [field_toNat, Nat.div_eq_of_lt hlt, Nat.zero_mod]

/-- A right shift by the width of a field moves each field one place down. -/
theorem field_ushiftRight (g k : Nat) : (field (x >>> g) g k).toNat = (field x g (k + 1)).toNat := by
  rw [field_toNat, field_toNat, BitVec.toNat_ushiftRight, Nat.shiftRight_eq_div_pow,
    Nat.div_div_eq_div_mul, ← Nat.pow_add, Nat.mul_succ, Nat.add_comm]

/-- A field of 2g bits is two of g bits. -/
theorem field_two_mul (g k : Nat) :
    (field x (2 * g) k).toNat = (field x g (2 * k)).toNat + 2 ^ g * (field x g (2 * k + 1)).toNat := by
  have hlow : 2 * g * k = g * (2 * k) := by ring
  have hpow : 2 ^ (2 * g) = 2 ^ g * 2 ^ g := by rw [Nat.two_mul, Nat.pow_add]
  simp only [field_toNat, hlow, hpow, Nat.mul_succ, Nat.pow_add, ← Nat.div_div_eq_div_mul, Nat.mod_mul]

/-- A field of one bit is that bit. -/
theorem field_one_toNat (i : Nat) : (field x 1 i).toNat = bit x i := by
  rw [field_toNat, Nat.one_mul, bit, ← BitVec.testBit_toNat, Nat.toNat_testBit, Nat.pow_one]

theorem bit_le_one (i : Nat) : bit x i ≤ 1 := Bool.toNat_le _

variable {x y}

/-- A word whose fields are each at most those of another is at most that word. -/
theorem le_of_fields_le (hg : g ∣ w)
    (h : ∀ k < w / g, (field x g k).toNat ≤ (field y g k).toNat) : x ≤ y := by
  have hlow : ∀ n ≤ w / g, x.toNat % 2 ^ (g * n) ≤ y.toNat % 2 ^ (g * n) := by
    intro n hn
    induction n with
    | zero => simp [Nat.mod_one]
    | succ n ih =>
      have hfield := h n hn
      rw [field_toNat, field_toNat] at hfield
      rw [Nat.mul_succ, Nat.pow_add, Nat.mod_mul, Nat.mod_mul]
      exact Nat.add_le_add (ih (Nat.le_of_succ_le hn)) (Nat.mul_le_mul_left _ hfield)
  have hall := hlow (w / g) le_rfl
  rwa [Nat.mul_div_cancel' hg, Nat.mod_eq_of_lt x.isLt, Nat.mod_eq_of_lt y.isLt, ← BitVec.le_def] at hall

/-- A word is its fields. -/
theorem eq_of_fields_eq (hg : g ∣ w)
    (h : ∀ k < w / g, (field x g k).toNat = (field y g k).toNat) : x = y :=
  BitVec.le_antisymm (le_of_fields_le hg fun k hk => (h k hk).le)
    (le_of_fields_le hg fun k hk => (h k hk).ge)

end

/-! ### Sums that carry out of no field -/

/-- No two fields of the same place add up to more than a field can hold. -/
def NoFieldCarry {w : Nat} (g : Nat) (x y : BitVec w) : Prop :=
  ∀ k < w / g, (field x g k).toNat + (field y g k).toNat < 2 ^ g

section

variable {w g : Nat} {x y : BitVec w} (h : NoFieldCarry g x y)

include h

/-- What lies above a field boundary adds up on its own. -/
theorem NoFieldCarry.add_div {n : Nat} (hn : n ≤ w / g) :
    (x.toNat + y.toNat) / 2 ^ (g * n) = x.toNat / 2 ^ (g * n) + y.toNat / 2 ^ (g * n) := by
  induction n with
  | zero => simp
  | succ n ih =>
    have hfields := h n hn
    rw [field_toNat, field_toNat] at hfields
    simp only [Nat.mul_succ, Nat.pow_add, ← Nat.div_div_eq_div_mul, ih (Nat.le_of_succ_le hn),
      Nat.add_div_eq_of_add_mod_lt hfields]

/-- The sum does not wrap. -/
theorem NoFieldCarry.toNat_add_lt (hg : g ∣ w) : x.toNat + y.toNat < 2 ^ w := by
  have hdiv := h.add_div le_rfl
  rw [Nat.mul_div_cancel' hg, Nat.div_eq_of_lt x.isLt, Nat.div_eq_of_lt y.isLt] at hdiv
  exact Nat.lt_of_div_eq_zero (Nat.two_pow_pos w) hdiv

theorem NoFieldCarry.toNat_add (hg : g ∣ w) : (x + y).toNat = x.toNat + y.toNat :=
  BitVec.toNat_add_of_lt (h.toNat_add_lt hg)

/-- Each field of the sum is the sum of the fields. -/
theorem NoFieldCarry.field_add (hg : g ∣ w) :
    ∀ k < w / g, (field (x + y) g k).toNat = (field x g k).toNat + (field y g k).toNat := by
  intro k hk
  have hfields := h k hk
  rw [field_toNat, field_toNat] at hfields
  rw [field_toNat, h.toNat_add hg, h.add_div hk.le, field_toNat, field_toNat,
    Nat.add_mod_of_add_mod_lt hfields]

end

/-! ### Masks that keep the low half of each field -/

/-- In each field of 2g bits the mask has its low g bits set, as M1, M2 and M3 have (R66 to R68). -/
def LowHalfMask {w : Nat} (g : Nat) (m : BitVec w) : Prop :=
  ∀ k < w / (2 * g), (field m (2 * g) k).toNat = 2 ^ g - 1

theorem m1_32_lowHalf : LowHalfMask 1 m1_32 := by unfold LowHalfMask; decide
theorem m2_32_lowHalf : LowHalfMask 2 m2_32 := by unfold LowHalfMask; decide
theorem m3_32_lowHalf : LowHalfMask 4 m3_32 := by unfold LowHalfMask; decide
theorem m1_64_lowHalf : LowHalfMask 1 m1_64 := by unfold LowHalfMask; decide
theorem m2_64_lowHalf : LowHalfMask 2 m2_64 := by unfold LowHalfMask; decide
theorem m3_64_lowHalf : LowHalfMask 4 m3_64 := by unfold LowHalfMask; decide

section

variable {w g : Nat} {m : BitVec w} (hm : LowHalfMask g m) (x : BitVec w)

include hm

/-- Under the mask each field of 2g bits holds its low half. -/
theorem LowHalfMask.field_and {k : Nat} (hk : k < w / (2 * g)) :
    (field (x &&& m) (2 * g) k).toNat = (field x g (2 * k)).toNat := by
  rw [Machine.field_and, BitVec.toNat_and, hm k hk, Nat.and_two_pow_sub_one_eq_mod, field_two_mul,
    Nat.add_mul_mod_self_left, Nat.mod_eq_of_lt (BitVec.isLt _)]

/-- After a shift by g bits it holds its high half. -/
theorem LowHalfMask.field_ushiftRight_and {k : Nat} (hk : k < w / (2 * g)) :
    (field ((x >>> g) &&& m) (2 * g) k).toNat = (field x g (2 * k + 1)).toNat := by
  rw [hm.field_and _ hk, field_ushiftRight]

end

/-! ### Step 1 (R123) -/

section

variable {w : Nat} {m1 : BitVec w} (hm : LowHalfMask 1 m1) (x : BitVec w)

include hm

/-- Each pair of the even bits holds the even bit of that pair of the operand. -/
theorem field_even_bits {i : Nat} (hi : i < w / 2) : (field (x &&& m1) 2 i).toNat = bit x (2 * i) :=
  (hm.field_and x hi).trans (field_one_toNat x _)

/-- Each pair of `b1` holds the odd bit of that pair of the operand. -/
theorem pairNets_field_b1 {i : Nat} (hi : i < w / 2) :
    (field (pairNets m1 x).b1 2 i).toNat = bit x (2 * i + 1) :=
  (hm.field_ushiftRight_and x hi).trans (field_one_toNat x _)

theorem even_odd_noFieldCarry : NoFieldCarry 2 (x &&& m1) (pairNets m1 x).b1 := by
  intro i hi
  have heven := bit_le_one x (2 * i)
  have hodd := bit_le_one x (2 * i + 1)
  rw [field_even_bits hm x hi, pairNets_field_b1 hm x hi]
  omega

variable (hw : 2 ∣ w)

include hw

theorem field_even_add_odd {i : Nat} (hi : i < w / 2) :
    (field ((x &&& m1) + (pairNets m1 x).b1) 2 i).toNat = bit x (2 * i + 1) + bit x (2 * i) := by
  rw [(even_odd_noFieldCarry hm x).field_add hw i hi, field_even_bits hm x hi,
    pairNets_field_b1 hm x hi, Nat.add_comm]

/-- The even bits, and the odd bits twice, make up the word without a carry. -/
theorem even_odd_odd_noFieldCarry :
    NoFieldCarry 2 ((x &&& m1) + (pairNets m1 x).b1) (pairNets m1 x).b1 := by
  intro i hi
  have heven := bit_le_one x (2 * i)
  have hodd := bit_le_one x (2 * i + 1)
  rw [field_even_add_odd hm x hw hi, pairNets_field_b1 hm x hi]
  omega

theorem even_add_odd_add_odd : (x &&& m1) + (pairNets m1 x).b1 + (pairNets m1 x).b1 = x := by
  refine eq_of_fields_eq hw fun i hi => ?_
  have hpair : (field x 2 i).toNat = bit x (2 * i) + 2 * bit x (2 * i + 1) := by
    rw [← field_one_toNat, ← field_one_toNat]
    exact field_two_mul x 1 i
  rw [(even_odd_odd_noFieldCarry hm x hw).field_add hw i hi, field_even_add_odd hm x hw hi,
    pairNets_field_b1 hm x hi, hpair]
  omega

/-- The equivalent form of step 1: the even bits and the odd bits added. -/
theorem pairNets_s1_eq_add : (pairNets m1 x).s1 = (x &&& m1) + (pairNets m1 x).b1 :=
  BitVec.sub_eq_iff_eq_add.2 (even_add_odd_add_odd hm x hw).symm

/-- The subtraction needs no borrow. -/
theorem pairNets_s1_add_b1 : (pairNets m1 x).s1.toNat + (pairNets m1 x).b1.toNat = x.toNat := by
  rw [pairNets_s1_eq_add hm x hw, ← (even_odd_odd_noFieldCarry hm x hw).toNat_add hw,
    even_add_odd_add_odd hm x hw]

theorem pairNets_countsPairs : CountsPairs x (pairNets m1 x).s1 := by
  intro i hi
  rw [pairNets_s1_eq_add hm x hw]
  exact field_even_add_odd hm x hw hi

end

theorem CountsPairs.fieldsAtMost {w : Nat} {v s1 : BitVec w} (h : CountsPairs v s1) :
    FieldsAtMost 2 2 s1 := by
  intro i hi
  have hodd := bit_le_one v (2 * i + 1)
  have heven := bit_le_one v (2 * i)
  rw [h i hi]
  omega

/-! ### Step 2 (R124) -/

section

variable {w : Nat} {m2 : BitVec w} (hm : LowHalfMask 2 m2) (x : BitVec w)

include hm

theorem nibNets_field_lo2 {j : Nat} (hj : j < w / 4) :
    (field (nibNets m2 x).lo2 4 j).toNat = (field x 2 (2 * j)).toNat :=
  hm.field_and x hj

theorem nibNets_field_hi2 {j : Nat} (hj : j < w / 4) :
    (field (nibNets m2 x).hi2 4 j).toNat = (field x 2 (2 * j + 1)).toNat :=
  hm.field_ushiftRight_and x hj

/-- Two pairs add up to at most 6. -/
theorem nibNets_noFieldCarry : NoFieldCarry 4 (nibNets m2 x).lo2 (nibNets m2 x).hi2 := by
  intro j hj
  rw [nibNets_field_lo2 hm x hj, nibNets_field_hi2 hm x hj]
  omega

theorem nibNets_sumsPairs (hw : 4 ∣ w) : SumsPairs x (nibNets m2 x).s2 := by
  intro j hj
  rw [← nibNets_field_lo2 hm x hj, ← nibNets_field_hi2 hm x hj]
  exact (nibNets_noFieldCarry hm x).field_add hw j hj

end

section

variable {w : Nat} {s1 s2 : BitVec w} (h : SumsPairs s1 s2)

include h

theorem SumsPairs.fieldsAtMost : FieldsAtMost 4 6 s2 := by
  intro j hj
  rw [h j hj]
  omega

/-- Two pairs in format PC2 add up to at most 4. -/
theorem SumsPairs.fieldsAtMost_of_pc2 (hw : 4 ∣ w) (hs : FieldsAtMost 2 2 s1) : FieldsAtMost 4 4 s2 := by
  intro j hj
  have hlow := hs (2 * j) (by omega)
  have hhigh := hs (2 * j + 1) (by omega)
  rw [h j hj]
  omega

end

/-! ### Step 3 (R125) -/

/-- Nibbles of at most 7 fit. -/
theorem FieldsAtMost.nibblesFit {w n : Nat} {x : BitVec w} (h : FieldsAtMost 4 n x) (hn : n ≤ 7) :
    NibblesFit x := by
  intro j hj
  have hlow := h j (by omega)
  have hhigh := h (j + 1) hj
  omega

section

variable {w : Nat} (hw : 4 ∣ w) {x : BitVec w} (h : NibblesFit x)

include hw h

/-- The nibble above the top one is 0, so that nibbles that fit carry nowhere. -/
theorem NibblesFit.noFieldCarry : NoFieldCarry 4 x (x >>> 4) := by
  intro j hj
  rw [field_ushiftRight]
  obtain hlt | hge := Nat.lt_or_ge (j + 1) (w / 4)
  · exact Nat.lt_succ_of_le (h j hlt)
  · rw [field_toNat_eq_zero x (k := j + 1) (by omega), Nat.add_zero]
    exact BitVec.isLt _

theorem byteNets_addsNextNibble (m3 : BitVec w) : AddsNextNibble x (byteNets m3 x).t3 := by
  intro j hj
  rw [← field_ushiftRight]
  exact (h.noFieldCarry hw).field_add hw j hj

theorem byteNets_t3_toNat (m3 : BitVec w) :
    (byteNets m3 x).t3.toNat = x.toNat + (x >>> 4).toNat :=
  (h.noFieldCarry hw).toNat_add hw

theorem byteNets_sumsNibbles {m3 : BitVec w} (hm : LowHalfMask 4 m3) :
    SumsNibbles x (byteNets m3 x).s3 := by
  intro k hk
  exact (hm.field_and _ hk).trans (byteNets_addsNextNibble hw h m3 (2 * k) (by omega))

end

/-- Two nibbles in format PC4 add up to at most 8. -/
theorem SumsNibbles.fieldsAtMost_of_pc4 {w : Nat} {s2 s3 : BitVec w} (h : SumsNibbles s2 s3)
    (hs : FieldsAtMost 4 4 s2) : FieldsAtMost 8 8 s3 := by
  intro k hk
  have hlow := hs (2 * k) (by omega)
  have hhigh := hs (2 * k + 1) (by omega)
  rw [h k hk]
  omega

/-! ### The three lemmas, at both widths -/

/-- R123 at every width of whole pairs. -/
theorem pairNets_counts_without_borrow {w : Nat} {m1 : BitVec w} (hm : LowHalfMask 1 m1)
    (hw : 2 ∣ w) (x : BitVec w) :
    CountsPairs x (pairNets m1 x).s1 ∧ (pairNets m1 x).b1 ≤ x ∧
      (pairNets m1 x).s1 = (x &&& m1) + ((x >>> 1) &&& m1) ∧
      (x &&& m1).toNat + ((x >>> 1) &&& m1).toNat < 2 ^ w :=
  have hborrow : (pairNets m1 x).b1 ≤ x :=
    BitVec.le_def.2 (Nat.le.intro ((Nat.add_comm _ _).trans (pairNets_s1_add_b1 hm x hw)))
  ⟨pairNets_countsPairs hm x hw, hborrow, pairNets_s1_eq_add hm x hw,
    (even_odd_noFieldCarry hm x).toNat_add_lt hw⟩

/-- Settles O38: the even bits, and the odd bits twice, make up the word without a carry
(`even_add_odd_add_odd`). -/
theorem pairLemma : Obligations.PairLemma :=
  ⟨pairNets_counts_without_borrow m1_32_lowHalf (by decide),
    pairNets_counts_without_borrow m1_64_lowHalf (by decide)⟩

/-- R124 at every width of whole nibbles. -/
theorem nibNets_sums_without_carry {w : Nat} {m2 : BitVec w} (hm : LowHalfMask 2 m2)
    (hw : 4 ∣ w) (x : BitVec w) :
    SumsPairs x (nibNets m2 x).s2 ∧ FieldsAtMost 4 6 (nibNets m2 x).s2 ∧
      (∀ j < w / 4, (field (nibNets m2 x).s2 4 j).toNat =
        (field (nibNets m2 x).lo2 4 j).toNat + (field (nibNets m2 x).hi2 4 j).toNat) ∧
      (FieldsAtMost 2 2 x → FieldsAtMost 4 4 (nibNets m2 x).s2) :=
  have hsums := nibNets_sumsPairs hm x hw
  ⟨hsums, hsums.fieldsAtMost, (nibNets_noFieldCarry hm x).field_add hw, hsums.fieldsAtMost_of_pc2 hw⟩

/-- Settles O39: two pairs fit in a nibble (`nibNets_noFieldCarry`), and in the pipeline they count
(`byteDatapath_s2_nibbles`). -/
theorem nibbleLemma : Obligations.NibbleLemma :=
  ⟨nibNets_sums_without_carry m2_32_lowHalf (by decide),
    fun v j hj => (byteDatapath_s2_nibbles (k := 4) v j hj).1,
    nibNets_sums_without_carry m2_64_lowHalf (by decide),
    fun v j hj => (byteDatapath_s2_nibbles (k := 8) v j hj).1⟩

/-- R125 at every width of whole nibbles. -/
theorem byteNets_sums_of_nibblesFit {w : Nat} {m3 : BitVec w} (hm : LowHalfMask 4 m3)
    (hw : 4 ∣ w) (x : BitVec w) (h : NibblesFit x) :
    SumsNibbles x (byteNets m3 x).s3 ∧ AddsNextNibble x (byteNets m3 x).t3 ∧
      x.toNat + (x >>> 4).toNat < 2 ^ w :=
  ⟨byteNets_sumsNibbles hw h hm, byteNets_addsNextNibble hw h m3, (h.noFieldCarry hw).toNat_add_lt hw⟩

/-- Nibbles of at most 4 fit, and add up to bytes of at most 8. -/
theorem byteNets_fieldsAtMost_of_pc4 {w : Nat} {m3 : BitVec w} (hm : LowHalfMask 4 m3) (hw : 4 ∣ w)
    {x : BitVec w} (h : FieldsAtMost 4 4 x) : FieldsAtMost 8 8 (byteNets m3 x).s3 :=
  (byteNets_sumsNibbles hw (h.nibblesFit (by decide)) hm).fieldsAtMost_of_pc4 h

/-- Settles O40: nibbles that fit carry nowhere (`NibblesFit.noFieldCarry`), and in the pipeline their
sums count (`byteDatapath_s3_bytes`). -/
theorem byteLemma : Obligations.ByteLemma :=
  ⟨byteNets_sums_of_nibblesFit m3_32_lowHalf (by decide),
    fun _ => ⟨fun h => h.nibblesFit le_rfl, byteNets_fieldsAtMost_of_pc4 m3_32_lowHalf (by decide)⟩,
    fun v k hk => (byteDatapath_s3_bytes (k := 4) v k hk).1,
    byteNets_sums_of_nibblesFit m3_64_lowHalf (by decide),
    fun _ => ⟨fun h => h.nibblesFit le_rfl, byteNets_fieldsAtMost_of_pc4 m3_64_lowHalf (by decide)⟩,
    fun v k hk => (byteDatapath_s3_bytes (k := 8) v k hk).1⟩

/-! ### Step 4 (R126, R131) -/

/-- In format PC8 the lowest `n` bytes add up to at most 8n. -/
theorem FieldsAtMost.byteSumBelow_le {w : Nat} {x : BitVec w} (h : FieldsAtMost 8 8 x) {n : Nat}
    (hn : n ≤ w / 8) : byteSumBelow x n ≤ 8 * n := by
  induction n with
  | zero => exact le_rfl
  | succ n ih => exact Nat.add_le_add (ih (Nat.le_of_succ_le hn)) (h n hn)

/-- R126 at every width of whole bytes. -/
theorem sumNets_byte_sums {k : Nat} (x : BitVec (8 * (k + 1))) :
    (sumNets (repByte 0x01#8 (k + 1)) x).p.toNat = prefixWordBelow x (k + 1) % 2 ^ (8 * (k + 1)) ∧
      (byteSumBelow x (k + 1) ≤ 255 → PrefixSums x (sumNets (repByte 0x01#8 (k + 1)) x).p ∧
        (sumNets (repByte 0x01#8 (k + 1)) x).count.toNat = byteSumBelow x (k + 1)) ∧
      (FieldsAtMost 8 8 x → ∀ j < k + 1, byteSumBelow x (j + 1) ≤ 8 * (j + 1)) := by
  refine ⟨?_, fun h => ⟨sumNets_p_prefixSums x h, sumNets_count_toNat x h⟩,
    fun h j hj => h.byteSumBelow_le ?_⟩
  · rw [sumNets_p, BitVec.toNat_mul]
    exact mul_ones_modEq (k + 1) x
  · rwa [Nat.mul_div_cancel_left _ (by decide)]

/-- Settles O41: both widths are whole bytes, and the product holds the running byte sums
(`mul_ones_modEq`). -/
theorem horizontalSumLemma : Obligations.HorizontalSumLemma :=
  ⟨sumNets_byte_sums (k := 3), sumNets_byte_sums (k := 7)⟩

/-- Every shift is a product, and so is their sum. -/
theorem shiftAddBelow_eq_mul {w : Nat} (x : BitVec w) (n : Nat) :
    shiftAddBelow x n = x * shiftAddBelow 1#w n := by
  induction n with
  | zero => exact (BitVec.mul_zero).symm
  | succ n ih =>
    rw [shiftAddBelow, ih, shiftAddBelow, BitVec.mul_add, BitVec.shiftLeft_eq_mul_twoPow,
      BitVec.shiftLeft_eq_mul_twoPow 1#w, BitVec.one_mul]

/-- The count is the top byte of the product. -/
theorem sumNets_count_eq {w : Nat} (h x : BitVec w) :
    (sumNets h x).count = (sumNets h x).p.extractLsb' (w - 8) 8 :=
  BitVec.setWidth_ushiftRight_eq_extractLsb

/-- The multiplier whose shifts step 4 adds up gives it as shifts and adds. -/
theorem sumNets_shiftAdd {w n : Nat} {h : BitVec w} (hh : shiftAddBelow 1#w n = h) (x : BitVec w) :
    (sumNets h x).p = shiftAddBelow x n ∧
      (sumNets h x).count = (shiftAddBelow x n).extractLsb' (w - 8) 8 := by
  have hp : (sumNets h x).p = shiftAddBelow x n := by rw [sumNets_p, shiftAddBelow_eq_mul, hh]
  exact ⟨hp, by rw [sumNets_count_eq, hp]⟩

/-- Settles O45: the multiplier is the sum of the shifts of 1. -/
theorem productIsShiftAndAdd : Obligations.ProductIsShiftAndAdd := by
  have h32 : shiftAddBelow 1#32 4 = h_32 := by decide
  have h64 : shiftAddBelow 1#64 8 = h_64 := by decide
  exact ⟨sumNets_shiftAdd h32, sumNets_shiftAdd h64⟩

end Sys2Proof.Machine

/-! PROOFS. The stages on the two halves of a word and on a zero-extended word (spec/41_reduction_tree.md
R134, R135), and the stage operations at exec (R115 to R122). -/

namespace Sys2Proof.Machine

/-! ### Fields of a word cut in two -/

section

variable {m n g q : Nat} (hq : g * q = n) (hi : BitVec m) (lo : BitVec n)

include hq

/-- A field that lies in the low part is that field of the part. -/
theorem field_append_of_lt {k : Nat} (hk : k < q) : field (hi ++ lo) g k = field lo g k := by
  have hle : g * k + g ≤ n := by
    rw [← hq, ← Nat.mul_succ]
    exact Nat.mul_le_mul_left g hk
  exact BitVec.extractLsb'_append_eq_of_add_le hle

/-- The fields above it are those of the high part. -/
theorem field_append_add (k : Nat) : field (hi ++ lo) g (q + k) = field hi g k := by
  have hpos : g * (q + k) = n + g * k := by rw [Nat.mul_add, hq]
  rw [field, BitVec.extractLsb'_append_eq_of_le (by omega), hpos, Nat.add_sub_cancel_left, field]

end

section

variable {m n q : Nat} (hq : 8 * q = n) (hi : BitVec m) (lo : BitVec n)

include hq

/-- The bytes of the low part add up on their own. -/
theorem byteSumBelow_append_low {k : Nat} (hk : k ≤ q) :
    byteSumBelow (hi ++ lo) k = byteSumBelow lo k := by
  induction k with
  | zero => rfl
  | succ k ih =>
    rw [byteSumBelow, ih (Nat.le_of_succ_le hk), field_append_of_lt hq hi lo hk, byteSumBelow]

/-- Above them come those of the high part. -/
theorem byteSumBelow_append_high (k : Nat) :
    byteSumBelow (hi ++ lo) (q + k) = byteSumBelow lo q + byteSumBelow hi k := by
  induction k with
  | zero => exact byteSumBelow_append_low hq hi lo le_rfl
  | succ k ih =>
    rw [← Nat.add_assoc, byteSumBelow, ih, field_append_add hq, byteSumBelow, Nat.add_assoc]

end

section

variable {m n : Nat} (hn : 8 ∣ n) {hi : BitVec m} {lo : BitVec n}

include hn

/-- Where the nibbles of a word fit, those of its two parts do. -/
theorem NibblesFit.of_append (h : NibblesFit (hi ++ lo)) : NibblesFit hi ∧ NibblesFit lo := by
  have hq : 4 * (n / 4) = n := by omega
  refine ⟨fun j hj => ?_, fun j hj => ?_⟩
  · have hfit := h (n / 4 + j) (by omega)
    rwa [Nat.add_assoc, field_append_add hq, field_append_add hq] at hfit
  · have hfit := h j (by omega)
    rwa [field_append_of_lt hq hi lo (by omega), field_append_of_lt hq hi lo hj] at hfit

/-- The nibbles of each part add up on their own. -/
theorem SumsNibbles.append {a : BitVec m} {b : BitVec n} (ha : SumsNibbles hi a)
    (hb : SumsNibbles lo b) : SumsNibbles (hi ++ lo) (a ++ b) := by
  have hq4 : 4 * (n / 4) = n := by omega
  have hq8 : 8 * (n / 8) = n := by omega
  intro k hk
  obtain hlt | ⟨j, rfl⟩ := (Nat.lt_or_ge k (n / 8)).imp_right Nat.exists_eq_add_of_le
  · rw [field_append_of_lt hq8 a b hlt, hb k hlt, field_append_of_lt hq4 hi lo (by omega),
      field_append_of_lt hq4 hi lo (by omega)]
  · have hlow : 2 * (n / 8 + j) = n / 4 + 2 * j := by omega
    rw [field_append_add hq8, ha j (by omega), hlow, field_append_add hq4, Nat.add_assoc,
      field_append_add hq4]

/-- In format PC8 the bytes of both parts are at most 8. -/
theorem FieldsAtMost.append (hhi : FieldsAtMost 8 8 hi) (hlo : FieldsAtMost 8 8 lo) :
    FieldsAtMost 8 8 (hi ++ lo) := by
  have hq : 8 * (n / 8) = n := by omega
  intro k hk
  obtain hlt | ⟨j, rfl⟩ := (Nat.lt_or_ge k (n / 8)).imp_right Nat.exists_eq_add_of_le
  · rw [field_append_of_lt hq hi lo hlt]
    exact hlo k hlt
  · rw [field_append_add hq]
    exact hhi j (by omega)

end

/-- The byte sums of the nibbles are one word. -/
theorem SumsNibbles.unique {w : Nat} (hw : 8 ∣ w) {s2 a b : BitVec w} (ha : SumsNibbles s2 a)
    (hb : SumsNibbles s2 b) : a = b :=
  eq_of_fields_eq hw fun k hk => (ha k hk).trans (hb k hk).symm

/-! ### The 64-bit stages on halves -/

section

variable (hi lo : Word32)

theorem pairNets64_append : (pairNets64 (hi ++ lo)).s1 = (pairNets32 hi).s1 ++ (pairNets32 lo).s1 := by
  obtain ⟨-, hborrow, -, -⟩ := pairNets_counts_without_borrow m1_32_lowHalf (by decide) lo
  exact pairNets_append m1_32 hi m1_32 lo
    (fun i h => getLsbD_eq_false_of_toNat_lt (j := 31) (by decide) (by omega)) hborrow

theorem nibNets64_append : (nibNets64 (hi ++ lo)).s2 = (nibNets32 hi).s2 ++ (nibNets32 lo).s2 :=
  nibNets_append m2_32 hi m2_32 lo
    (fun i h => getLsbD_eq_false_of_toNat_lt (j := 30) (by decide) (by omega))
    ((nibNets_noFieldCarry m2_32_lowHalf lo).toNat_add_lt (by decide))

variable {hi lo}

theorem byteNets64_append (h : NibblesFit (w := 64) (hi ++ lo)) :
    (byteNets64 (hi ++ lo)).s3 = (byteNets32 hi).s3 ++ (byteNets32 lo).s3 := by
  obtain ⟨hhi, hlo⟩ := NibblesFit.of_append (by decide) h
  have hwhole := byteNets_sumsNibbles (by decide) h m3_64_lowHalf
  have hparts := SumsNibbles.append (by decide)
    (byteNets_sumsNibbles (by decide) hhi m3_32_lowHalf)
    (byteNets_sumsNibbles (by decide) hlo m3_32_lowHalf)
  exact hwhole.unique (by decide) hparts

theorem sumNets32_count_of_pc8 (h : FieldsAtMost 8 8 lo) :
    (sumNets32 lo).count.toNat = byteSumBelow lo 4 ∧ byteSumBelow lo 4 ≤ 32 := by
  have hle : byteSumBelow lo 4 ≤ 32 := h.byteSumBelow_le (n := 4) le_rfl
  exact ⟨sumNets_count_toNat (k := 3) lo (hle.trans (by decide)), hle⟩

theorem sumNets64_count_of_pc8 {x : Word64} (h : FieldsAtMost 8 8 x) :
    (sumNets64 x).count.toNat = byteSumBelow x 8 ∧ byteSumBelow x 8 ≤ 64 := by
  have hle : byteSumBelow x 8 ≤ 64 := h.byteSumBelow_le (n := 8) le_rfl
  exact ⟨sumNets_count_toNat (k := 7) x (hle.trans (by decide)), hle⟩

theorem sumNets64_append_count (hhi : FieldsAtMost 8 8 hi) (hlo : FieldsAtMost 8 8 lo) :
    (sumNets64 (hi ++ lo)).count.toNat = (sumNets32 hi).count.toNat + (sumNets32 lo).count.toNat ∧
      (sumNets64 (hi ++ lo)).count.toNat ≤ 64 := by
  obtain ⟨hcount, hle⟩ := sumNets64_count_of_pc8 (FieldsAtMost.append (by decide) hhi hlo)
  have hsum : byteSumBelow (hi ++ lo) 8 = byteSumBelow lo 4 + byteSumBelow hi 4 :=
    byteSumBelow_append_high (q := 4) rfl hi lo 4
  obtain ⟨hcounthi, -⟩ := sumNets32_count_of_pc8 hhi
  obtain ⟨hcountlo, -⟩ := sumNets32_count_of_pc8 hlo
  omega

variable (hi lo)

/-- The low half of the product does not depend on the high half of the word. -/
theorem sumNets64_append_p_low : (sumNets64 (hi ++ lo)).p.extractLsb' 0 32 = (sumNets32 lo).p := by
  have hh : h_64.setWidth 32 = h_32 := by decide
  have hlo : (hi ++ lo).setWidth 32 = lo := by rw [BitVec.setWidth_append, dif_pos le_rfl]; simp
  rw [← BitVec.setWidth_eq_extractLsb' (by decide), sumNets64, sumNets_p,
    BitVec.setWidth_mul _ _ (by decide), hh, hlo, sumNets32, sumNets_p]

end

/-- Settles O47: steps 1 and 2, and step 3 where the nibbles fit, act on each half alone; the bytes of
both halves add up (`byteSumBelow_append_high`), and the product is modulo 2^32 in its low half. -/
theorem stagesActOnHalves : Obligations.StagesActOnHalves := fun hi lo =>
  ⟨pairNets64_append hi lo, nibNets64_append hi lo, byteNets64_append, sumNets64_append_count,
    (sumNets64_append_p_low hi lo).trans (sumNets_p h_32 lo), sumNets64_append_p_low hi lo⟩

/-! ### The 64-bit stages on a zero-extended word -/

theorem setWidth_64_eq_append (x : Word32) : x.setWidth 64 = 0#32 ++ x := by
  rw [BitVec.setWidth_eq_append (by decide)]
  rfl

theorem fieldsAtMost_zero {w g m : Nat} : FieldsAtMost g m 0#w := by
  intro k _
  rw [field_toNat, BitVec.toNat_ofNat, Nat.zero_mod, Nat.zero_div, Nat.zero_mod]
  exact Nat.zero_le m

/-- Zero-extension adds zero nibbles, so that nibbles that fit still do. -/
theorem NibblesFit.zero_append {x : Word32} (h : NibblesFit x) : NibblesFit (w := 64) (0#32 ++ x) := by
  have hfield (j : Nat) : (field (0#32 ++ x) 4 j).toNat = (field x 4 j).toNat := by
    rw [field_toNat, toNat_append_eq, BitVec.toNat_ofNat, Nat.zero_mod, Nat.zero_mul, Nat.zero_add,
      field_toNat]
  intro j _
  rw [hfield, hfield]
  obtain hlt | hge := Nat.lt_or_ge (j + 1) 8
  · exact h j hlt
  · rw [field_toNat_eq_zero x (k := j + 1) (by omega), Nat.add_zero]
    exact Nat.le_of_lt_succ (BitVec.isLt _)

theorem byteSumBelow_zero {w n : Nat} : byteSumBelow 0#w n = 0 := by
  induction n with
  | zero => rfl
  | succ n ih =>
    rw [byteSumBelow, ih, field_toNat, BitVec.toNat_ofNat, Nat.zero_mod, Nat.zero_div, Nat.zero_mod]

/-- A word is its two halves, read byte by byte. -/
theorem eq_append_of_bytes_eq {x : Word64} {hi lo : Word32}
    (hlo : ∀ j < 4, (field x 8 j).toNat = (field lo 8 j).toNat)
    (hhi : ∀ j < 4, (field x 8 (4 + j)).toNat = (field hi 8 j).toNat) : x = hi ++ lo := by
  refine eq_of_fields_eq (g := 8) (by decide) fun j hj => ?_
  obtain hlt | ⟨i, rfl⟩ := (Nat.lt_or_ge j 4).imp_right Nat.exists_eq_add_of_le
  · exact (hlo j hlt).trans (congrArg _ (field_append_of_lt (g := 8) (q := 4) rfl hi lo hlt).symm)
  · exact (hhi i (by omega)).trans (congrArg _ (field_append_add (g := 8) (q := 4) rfl hi lo i).symm)

/-- Above a word in format PC8 the product repeats its total. -/
theorem sumNets64_zero_append_p {x : Word32} (h : FieldsAtMost 8 8 x) :
    (sumNets64 (0#32 ++ x)).p = (sumNets32 x).count ++ (sumNets32 x).count ++
      (sumNets32 x).count ++ (sumNets32 x).count ++ (sumNets32 x).p := by
  obtain ⟨hcount, hle⟩ := sumNets32_count_of_pc8 h
  have hsum (j : Nat) : byteSumBelow (0#32 ++ x) (4 + j) = byteSumBelow x 4 := by
    rw [byteSumBelow_append_high (q := 4) rfl, byteSumBelow_zero, Nat.add_zero]
  have hbytes : PrefixSums (0#32 ++ x) (sumNets64 (0#32 ++ x)).p :=
    sumNets_p_prefixSums (k := 8) _ ((hsum 4).trans_le (hle.trans (by decide)))
  have hbytes32 : PrefixSums x (sumNets32 x).p :=
    sumNets_p_prefixSums (k := 4) x (hle.trans (by decide))
  have hrepeat (c : Count) {j : Nat} (hj : j < 4) : field (c ++ c ++ c ++ c) 8 j = c := by
    interval_cases j <;> simp [field_append_zero, field_append_succ, field_byte_zero]
  refine eq_append_of_bytes_eq (fun j hj => ?_) fun j hj => ?_
  · rw [hbytes j (hj.trans (by decide)), hbytes32 j hj]
    exact byteSumBelow_append_low (q := 4) rfl 0#32 x hj
  · rw [hrepeat _ hj, hcount, hbytes (4 + j) (Nat.add_lt_add_left hj 4)]
    exact hsum (j + 1)

/-- Settles O48: a zero-extended word is the word under a half of zeros (`stagesActOnHalves`). -/
theorem stagesActOnZeroExtension : Obligations.StagesActOnZeroExtension := by
  intro x
  simp only [setWidth_64_eq_append]
  obtain ⟨hpair, hnib, hbyte, hsum, -, -⟩ := stagesActOnHalves 0#32 x
  refine ⟨hpair, hnib, fun h => hbyte h.zero_append, fun h => ⟨?_, sumNets64_zero_append_p h⟩⟩
  obtain ⟨hcount, -⟩ := hsum fieldsAtMost_zero h
  exact BitVec.eq_of_toNat_eq (hcount.trans (Nat.zero_add _))

/-! ### The stage operations at exec -/

/-- Settles O17: the nets are step 1's, whose result `pairNets_counts_without_borrow` describes. -/
theorem pairsum32Result : Obligations.Pairsum32Result := by
  refine ⟨rfl, fun s => ⟨_, exec_pairsum32 s, rfl, rfl, rfl, rfl, ?_⟩⟩
  have hcounts := pairNets_countsPairs m1_32_lowHalf s.pairsum32.v (by decide)
  exact ⟨pairNets_s1_add_b1 m1_32_lowHalf s.pairsum32.v (by decide), hcounts, hcounts.fieldsAtMost⟩

/-- A 64-bit word is its two halves. -/
theorem halves_eq (x : Word64) : x.extractLsb' 32 32 ++ x.extractLsb' 0 32 = x :=
  (BitVec.extractLsb'_append_extractLsb'_eq_extractLsb' rfl).trans BitVec.extractLsb'_eq_self

/-- Settles O18: as O17, and step 1 acts on each half alone (`pairNets64_append`). -/
theorem pairsum64Result : Obligations.Pairsum64Result := by
  refine ⟨rfl, fun s => ⟨_, exec_pairsum64 s, rfl, rfl, rfl, rfl, ?_⟩⟩
  have hcounts := pairNets_countsPairs m1_64_lowHalf s.pairsum64.v (by decide)
  have hhalves := pairNets64_append (s.pairsum64.v.extractLsb' 32 32) (s.pairsum64.v.extractLsb' 0 32)
  rw [halves_eq] at hhalves
  exact ⟨pairNets_s1_add_b1 m1_64_lowHalf s.pairsum64.v (by decide), hcounts, hcounts.fieldsAtMost,
    hhalves⟩

/-- Settles O19: the nets are step 2's; two pairs fit in a nibble (`nibNets_noFieldCarry`). -/
theorem nibsum32Result : Obligations.Nibsum32Result := by
  refine ⟨rfl, fun s => ⟨_, exec_nibsum32 s, rfl, rfl, rfl, rfl, rfl, ?_⟩⟩
  have hsums := nibNets_sumsPairs m2_32_lowHalf s.nibsum32.s1 (by decide)
  exact ⟨(nibNets_noFieldCarry m2_32_lowHalf s.nibsum32.s1).toNat_add (by decide), hsums,
    hsums.fieldsAtMost, hsums.fieldsAtMost_of_pc2 (by decide)⟩

/-- Settles O20: as O19, and step 2 acts on each half alone (`nibNets64_append`). -/
theorem nibsum64Result : Obligations.Nibsum64Result := by
  refine ⟨rfl, fun s => ⟨_, exec_nibsum64 s, rfl, rfl, rfl, rfl, rfl, ?_⟩⟩
  have hsums := nibNets_sumsPairs m2_64_lowHalf s.nibsum64.s1 (by decide)
  have hhalves := nibNets64_append (s.nibsum64.s1.extractLsb' 32 32) (s.nibsum64.s1.extractLsb' 0 32)
  rw [halves_eq] at hhalves
  exact ⟨(nibNets_noFieldCarry m2_64_lowHalf s.nibsum64.s1).toNat_add (by decide), hsums,
    hsums.fieldsAtMost, hsums.fieldsAtMost_of_pc2 (by decide), hhalves⟩

/-- Settles O21: the nets are step 3's; nibbles of at most 7 fit (`FieldsAtMost.nibblesFit`). -/
theorem bytesum32Result : Obligations.Bytesum32Result := by
  refine ⟨rfl, fun s => ⟨_, exec_bytesum32 s, rfl, rfl, rfl, rfl, fun h => ?_, fun h => ?_⟩⟩
  · exact byteNets_sumsNibbles (by decide) (h.nibblesFit le_rfl) m3_32_lowHalf
  · have hfit := h.nibblesFit (by decide)
    exact ⟨byteNets_fieldsAtMost_of_pc4 m3_32_lowHalf (by decide) h,
      byteNets_addsNextNibble (by decide) hfit m3_32, byteNets_t3_toNat (by decide) hfit m3_32⟩

/-- Settles O22: as O21, and step 3 acts on each half alone where nibbles fit (`byteNets64_append`). -/
theorem bytesum64Result : Obligations.Bytesum64Result := by
  refine ⟨rfl, fun s => ⟨_, exec_bytesum64 s, rfl, rfl, rfl, rfl, fun h => ?_, fun h => ?_⟩⟩
  · exact byteNets_sumsNibbles (by decide) (h.nibblesFit le_rfl) m3_64_lowHalf
  · have hfit := h.nibblesFit (by decide)
    have hhalves := byteNets64_append (hi := s.bytesum64.s2.extractLsb' 32 32)
      (lo := s.bytesum64.s2.extractLsb' 0 32)
    rw [halves_eq] at hhalves
    exact ⟨byteNets_fieldsAtMost_of_pc4 m3_64_lowHalf (by decide) h,
      byteNets_addsNextNibble (by decide) hfit m3_64, byteNets_t3_toNat (by decide) hfit m3_64,
      hhalves hfit⟩

/-- Settles O23: the nets are step 4's, which adds the bytes up where they fit (`sumNets_byte_sums`). -/
theorem hsum32Result : Obligations.Hsum32Result := by
  refine ⟨rfl, fun s => ⟨_, exec_hsum32 s, rfl, rfl, sumNets_p h_32 _, sumNets_count_eq h_32 _, ?_⟩⟩
  obtain ⟨-, hsum, hpc8⟩ := sumNets_byte_sums (k := 3) s.hsum32.s3
  exact ⟨fun h => (hsum h).symm, fun h => hpc8 h 3 (by decide)⟩

/-- Settles O24, as O23 at width 64. -/
theorem hsum64Result : Obligations.Hsum64Result := by
  refine ⟨rfl, fun s => ⟨_, exec_hsum64 s, rfl, rfl, sumNets_p h_64 _, sumNets_count_eq h_64 _, ?_⟩⟩
  obtain ⟨-, hsum, hpc8⟩ := sumNets_byte_sums (k := 7) s.hsum64.s3
  exact ⟨fun h => (hsum h).symm, fun h => hpc8 h 7 (by decide)⟩

end Sys2Proof.Machine

/-! PROOFS. The steps in the pipeline (spec/41_reduction_tree.md R127 to R129, R132): each step's input is
in the format its own lemma asks for; so nothing wraps before the product, every net has its range, the
kind of the shifts does not matter, and a tree of small adders gives the same words. -/

namespace Sys2Proof.Machine

/-! ### The nets of the pipeline -/

/-- What steps 1 to 3 and the product do inside the pipeline, net by net. -/
structure Reduction {w : Nat} (n : WordNets w) : Prop where
  b1_range : FieldsAtMost 2 1 n.b1
  s1_no_borrow : n.s1.toNat + n.b1.toNat = n.v.toNat
  s1_counts : CountsPairs n.v n.s1
  lo2_range : FieldsAtMost 4 2 n.lo2
  hi2_range : FieldsAtMost 4 2 n.hi2
  s2_no_wrap : n.s2.toNat = n.lo2.toNat + n.hi2.toNat
  s2_sums : SumsPairs n.s1 n.s2
  s2_range : FieldsAtMost 4 4 n.s2
  t3_no_wrap : n.t3.toNat = n.s2.toNat + (n.s2 >>> 4).toNat
  t3_sums : AddsNextNibble n.s2 n.t3
  s3_sums : SumsNibbles n.s2 n.s3
  s3_range : FieldsAtMost 8 8 n.s3
  p_sums : PrefixSums n.s3 n.p
  count_top : n.count = field n.p 8 (w / 8 - 1)

theorem wordNets_reduction {w : Nat} (hw : 8 ∣ w) {m1 m2 m3 h : BitVec w} (h1 : LowHalfMask 1 m1)
    (h2 : LowHalfMask 2 m2) (h3 : LowHalfMask 4 m3) (v : BitVec w)
    (hp : PrefixSums (wordNets m1 m2 m3 h v).s3 (wordNets m1 m2 m3 h v).p) :
    Reduction (wordNets m1 m2 m3 h v) := by
  have hw2 : 2 ∣ w := Dvd.dvd.trans (by decide) hw
  have hw4 : 4 ∣ w := Dvd.dvd.trans (by decide) hw
  have hs1 := pairNets_countsPairs h1 v hw2
  have hs2 := nibNets_sumsPairs h2 (pairNets m1 v).s1 hw4
  have hpc4 := hs2.fieldsAtMost_of_pc2 hw4 hs1.fieldsAtMost
  have hfit := hpc4.nibblesFit (by decide)
  constructor
  case b1_range =>
    intro i hi
    exact (pairNets_field_b1 h1 v hi).trans_le (bit_le_one v _)
  case s1_no_borrow => exact pairNets_s1_add_b1 h1 v hw2
  case s1_counts => exact hs1
  case lo2_range =>
    intro j hj
    exact (nibNets_field_lo2 h2 _ hj).trans_le (hs1.fieldsAtMost _ (by omega))
  case hi2_range =>
    intro j hj
    exact (nibNets_field_hi2 h2 _ hj).trans_le (hs1.fieldsAtMost _ (by omega))
  case s2_no_wrap => exact (nibNets_noFieldCarry h2 _).toNat_add hw4
  case s2_sums => exact hs2
  case s2_range => exact hpc4
  case t3_no_wrap => exact byteNets_t3_toNat hw4 hfit m3
  case t3_sums => exact byteNets_addsNextNibble hw4 hfit m3
  case s3_sums => exact byteNets_sumsNibbles hw4 hfit h3
  case s3_range => exact byteNets_fieldsAtMost_of_pc4 h3 hw4 hpc4
  case p_sums => exact hp
  case count_top =>
    have htop : 8 * (w / 8 - 1) = w - 8 := by omega
    rw [field, htop]
    exact sumNets_count_eq h _

theorem wordNets32_reduction (v : Word32) : Reduction (wordNets32 v) :=
  wordNets_reduction (by decide) m1_32_lowHalf m2_32_lowHalf m3_32_lowHalf v
    (byteDatapath_prefixSums (k := 4) (by decide) v)

theorem wordNets64_reduction (v : Word64) : Reduction (wordNets64 v) :=
  wordNets_reduction (by decide) m1_64_lowHalf m2_64_lowHalf m3_64_lowHalf v
    (byteDatapath_prefixSums (k := 8) (by decide) v)

/-! ### Ranges (R127, R129) -/

theorem wordNets32_allOnes : wordNets32 0xFFFFFFFF#32 = ⟨0xFFFFFFFF#32, 0x55555555#32, 0xAAAAAAAA#32,
    0x22222222#32, 0x22222222#32, 0x44444444#32, 0x48888888#32, 0x08080808#32, 0x20181008#32, 32#8⟩ := by
  decide

theorem wordNets64_allOnes : wordNets64 0xFFFFFFFFFFFFFFFF#64 = ⟨0xFFFFFFFFFFFFFFFF#64,
    0x5555555555555555#64, 0xAAAAAAAAAAAAAAAA#64, 0x2222222222222222#64, 0x2222222222222222#64,
    0x4444444444444444#64, 0x4888888888888888#64, 0x0808080808080808#64, 0x4038302820181008#64, 64#8⟩ := by
  decide

/-- Settles O42: steps 1 to 3 are plain arithmetic (`Reduction`); the operand of all ones makes the product
reach 2^W. -/
theorem pipelineNeverWrapsBeforeTheProduct : Obligations.PipelineNeverWrapsBeforeTheProduct := by
  have hwrap32 : 2 ^ 32 ≤ (wordNets32 0xFFFFFFFF#32).s3.toNat * h_32.toNat := by
    rw [wordNets32_allOnes]; decide
  have hwrap64 : 2 ^ 64 ≤ (wordNets64 0xFFFFFFFFFFFFFFFF#64).s3.toNat * h_64.toNat := by
    rw [wordNets64_allOnes]; decide
  refine ⟨fun v => ?_, ⟨_, hwrap32, ?_⟩, fun v => ?_, ⟨_, hwrap64, ?_⟩⟩
  · have h := wordNets32_reduction v
    exact ⟨h.s1_no_borrow, h.s2_no_wrap, h.t3_no_wrap⟩
  · exact ((BitVec.isLt _).trans_le hwrap32).ne
  · have h := wordNets64_reduction v
    exact ⟨h.s1_no_borrow, h.s2_no_wrap, h.t3_no_wrap⟩
  · exact ((BitVec.isLt _).trans_le hwrap64).ne

/-- A word whose fields are at most `m` is at most a word whose fields are at least `m`. -/
theorem FieldsAtMost.le {w g m : Nat} {x y : BitVec w} (h : FieldsAtMost g m x) (hg : g ∣ w)
    (hy : ∀ k < w / g, m ≤ (field y g k).toNat) : x ≤ y :=
  le_of_fields_le hg fun k hk => (h k hk).trans (hy k hk)

section

variable {w : Nat} {n : WordNets w} (h : Reduction n)

include h

/-- Each nibble of `t3` is the sum of two nibbles of at most 4, the top one of a single one. -/
theorem Reduction.t3_field_le (hw : 4 ∣ w) {j : Nat} (hj : j < w / 4) :
    (field n.t3 4 j).toNat ≤ if j + 1 < w / 4 then 8 else 4 := by
  have hlow := h.s2_range j hj
  rw [h.t3_sums j hj]
  split
  next hlt =>
    have hhigh := h.s2_range (j + 1) hlt
    omega
  next htop =>
    rwa [field_toNat_eq_zero n.s2 (k := j + 1) (by omega), Nat.add_zero]

theorem Reduction.t3_range (hw : 4 ∣ w) : FieldsAtMost 4 8 n.t3 := by
  intro j hj
  refine (h.t3_field_le hw hj).trans ?_
  split <;> decide

theorem Reduction.t3_le (hw : 4 ∣ w) {y : BitVec w}
    (hy : ∀ j < w / 4, (if j + 1 < w / 4 then 8 else 4) ≤ (field y 4 j).toNat) : n.t3 ≤ y :=
  le_of_fields_le hw fun j hj => (h.t3_field_le hw hj).trans (hy j hj)

/-- Byte j of `p` is the sum of j + 1 bytes of at most 8. -/
theorem Reduction.p_field_le {j : Nat} (hj : j < w / 8) : (field n.p 8 j).toNat ≤ 8 * (j + 1) :=
  (h.p_sums j hj).trans_le (h.s3_range.byteSumBelow_le hj)

theorem Reduction.p_le (hw : 8 ∣ w) {y : BitVec w}
    (hy : ∀ j < w / 8, 8 * (j + 1) ≤ (field y 8 j).toNat) : n.p ≤ y :=
  le_of_fields_le hw fun j hj => (h.p_field_le hj).trans (hy j hj)

end

/-- Settles O44: field by field the ranges are those of `Reduction`, and a word whose fields are at most
another's is at most that word (`le_of_fields_le`). -/
theorem netRanges : Obligations.NetRanges := by
  refine ⟨fun v => ?_, wordNets32_allOnes, fun v => ?_, wordNets64_allOnes⟩
  · have h := wordNets32_reduction v
    exact ⟨h.b1_range, h.s1_counts.fieldsAtMost, h.s1_counts.fieldsAtMost.le (by decide) (by decide),
      h.lo2_range, h.hi2_range, h.s2_range, h.s2_range.le (by decide) (by decide),
      h.t3_range (by decide), h.t3_field_le (by decide) (j := 7) (by decide),
      h.t3_le (by decide) (by decide), h.s3_range, h.s3_range.le (by decide) (by decide),
      fun j hj => h.p_field_le hj, h.p_le (by decide) (by decide),
      (wordNets32_count v).trans_le (popcntBelow_le v 32)⟩
  · have h := wordNets64_reduction v
    exact ⟨h.b1_range, h.s1_counts.fieldsAtMost, h.s1_counts.fieldsAtMost.le (by decide) (by decide),
      h.lo2_range, h.hi2_range, h.s2_range, h.s2_range.le (by decide) (by decide),
      h.t3_range (by decide), h.t3_field_le (by decide) (j := 15) (by decide),
      h.t3_le (by decide) (by decide), h.s3_range, h.s3_range.le (by decide) (by decide),
      fun j hj => h.p_field_le hj, h.p_le (by decide) (by decide),
      (wordNets64_count v).trans_le (popcntBelow_le v 64)⟩

/-! ### Arithmetic shifts (R128) -/

section

variable {w : Nat} (x : BitVec w)

/-- Below the bits it fills in, an arithmetic shift is the logical one. -/
theorem setWidth_sshiftRight {k n : Nat} (h : n + k ≤ w) :
    (x.sshiftRight k).setWidth n = (x >>> k).setWidth n := by
  apply BitVec.eq_of_getLsbD_eq
  intro i hi
  have hin : k + i < w := by omega
  have hiw : ¬ w ≤ i := by omega
  simp [BitVec.getLsbD_sshiftRight, hin, hiw]

/-- A mask with no bit at or above `n` keeps only the low `n` bits. -/
theorem and_eq_of_setWidth_eq {n : Nat} {a b m : BitVec w} (hm : m.toNat < 2 ^ n)
    (h : a.setWidth n = b.setWidth n) : a &&& m = b &&& m := by
  apply BitVec.eq_of_getLsbD_eq
  intro i _
  rw [BitVec.getLsbD_and, BitVec.getLsbD_and]
  obtain hlt | hge := Nat.lt_or_ge i n
  · have hbit := congrArg (BitVec.getLsbD · i) h
    simp only [BitVec.getLsbD_setWidth, hlt, decide_true, Bool.true_and] at hbit
    rw [hbit]
  · rw [getLsbD_eq_false_of_toNat_lt hm hge, Bool.and_false, Bool.and_false]

theorem pairNetsSar_eq {m1 : BitVec w} (hm : m1.toNat < 2 ^ (w - 1)) (hw : 1 ≤ w) :
    pairNetsSar m1 x = pairNets m1 x := by
  have hb1 := and_eq_of_setWidth_eq hm (setWidth_sshiftRight x (k := 1) (by omega))
  simp only [pairNetsSar, pairNets, hb1]

theorem nibNetsSar_eq {m2 : BitVec w} (hm : m2.toNat < 2 ^ (w - 2)) (hw : 2 ≤ w) :
    nibNetsSar m2 x = nibNets m2 x := by
  have hhi2 := and_eq_of_setWidth_eq hm (setWidth_sshiftRight x (k := 2) (by omega))
  simp only [nibNetsSar, nibNets, hhi2]

/-- The shifted words differ in the top nibble only, and the mask drops what that makes of the sum. -/
theorem byteNetsSar_s3 {m3 : BitVec w} (hm : m3.toNat < 2 ^ (w - 4)) (hw : 4 ≤ w) :
    (byteNetsSar m3 x).s3 = (byteNets m3 x).s3 := by
  refine and_eq_of_setWidth_eq hm ?_
  rw [BitVec.setWidth_add _ _ (by omega), setWidth_sshiftRight x (by omega),
    ← BitVec.setWidth_add _ _ (by omega)]

theorem sumNetsSar_eq (h : BitVec w) (hw : 8 ≤ w) : sumNetsSar h x = sumNets h x := by
  have hcount := setWidth_sshiftRight (h * x) (k := w - 8) (n := 8) (by omega)
  simp only [sumNetsSar, sumNets, hcount]

/-- Where the top bit is clear, the two shifts are one. -/
theorem byteNetsSar_eq (m3 : BitVec w) (hx : x.msb = false) : byteNetsSar m3 x = byteNets m3 x := by
  simp only [byteNetsSar, byteNets, BitVec.sshiftRight_eq_of_msb_false hx]

end

/-- R128 at every width: masks clear where an arithmetic shift fills in, and a clear top bit of `s2`, make
the kind of the shifts not matter. -/
theorem sarNets_eq {w : Nat} {m1 m2 m3 h x : BitVec w} (hw : 8 ≤ w) (h1 : m1.toNat < 2 ^ (w - 1))
    (h2 : m2.toNat < 2 ^ (w - 2)) (h3 : m3.toNat < 2 ^ (w - 4))
    (hs2 : (wordNets m1 m2 m3 h x).s2.msb = false) :
    pairNetsSar m1 x = pairNets m1 x ∧ nibNetsSar m2 x = nibNets m2 x ∧
      (byteNetsSar m3 x).s3 = (byteNets m3 x).s3 ∧ sumNetsSar h x = sumNets h x ∧
      wordNetsSar m1 m2 m3 h x = wordNets m1 m2 m3 h x := by
  have hpair := pairNetsSar_eq x h1 (by omega)
  have hnib (s1 : BitVec w) := nibNetsSar_eq s1 h2 (by omega)
  have hsum (s3 : BitVec w) := sumNetsSar_eq s3 h hw
  have hbyte := byteNetsSar_eq (nibNets m2 (pairNets m1 x).s1).s2 m3 hs2
  refine ⟨hpair, hnib x, byteNetsSar_s3 x h3 (by omega), hsum x, ?_⟩
  simp only [wordNetsSar, wordNets, hpair, hnib, hbyte, hsum]

theorem wordNets32_s2_msb (v : Word32) : (wordNets32 v).s2.msb = false :=
  (byteDatapath_s2_nibbles (k := 4) v 7 (by decide)).2

theorem wordNets64_s2_msb (v : Word64) : (wordNets64 v).s2.msb = false :=
  (byteDatapath_s2_nibbles (k := 8) v 15 (by decide)).2

/-- Settles O43: the masks drop every bit an arithmetic shift fills in (`and_eq_of_setWidth_eq`), and in
the pipeline `s2` has its top bit clear. -/
theorem shiftKindDoesNotMatter : Obligations.ShiftKindDoesNotMatter := by
  refine ⟨fun x => ?_, fun x => ?_, by decide, by decide, by decide⟩
  · exact sarNets_eq (by decide) (by decide) (by decide) (by decide) (wordNets32_s2_msb x)
  · exact sarNets_eq (by decide) (by decide) (by decide) (by decide) (wordNets64_s2_msb x)

/-! ### The tree of small adders (R132) -/

section

variable {w g : Nat} (f : Nat → BitVec g)

/-- Above its `n` fields the word is clear. -/
theorem ofFields_getLsbD_of_le {n i : Nat} (h : g * n ≤ i) : (ofFields w g f n).getLsbD i = false := by
  induction n with
  | zero => exact BitVec.getLsbD_zero
  | succ n ih =>
    rw [Nat.mul_succ] at h
    have hclear : (f n).getLsbD (i - g * n) = false := BitVec.getLsbD_of_ge _ _ (by omega)
    simp [ofFields, ih (by omega), hclear]

/-- Each of its fields is the one it is formed of. -/
theorem field_ofFields {n k : Nat} (hn : g * n ≤ w) (hk : k < n) : field (ofFields w g f n) g k = f k := by
  apply BitVec.eq_of_getLsbD_eq
  intro i hi
  rw [field_getLsbD _ _ hi]
  induction n with
  | zero => exact absurd hk (Nat.not_lt_zero k)
  | succ n ih =>
    rw [Nat.mul_succ] at hn
    rw [ofFields, BitVec.getLsbD_or]
    obtain rfl | hlt := Nat.eq_or_lt_of_le (Nat.le_of_lt_succ hk)
    · have hw : g * k + i < w := by omega
      rw [ofFields_getLsbD_of_le f (Nat.le_add_right (g * k) i)]
      simp [hw, hi]
    · have hbelow : g * k + i < g * n := by
        have hmul := Nat.mul_le_mul_left g (Nat.succ_le_of_lt hlt)
        rw [Nat.mul_succ] at hmul
        omega
      simp [ih (by omega) hlt, hbelow]

end

section

variable {w : Nat} (x : BitVec w)

theorem bit2_toNat (i : Nat) : (bit2 x i).toNat = bit x i := by
  rw [bit2, bit]
  cases x.getLsbD i <;> rfl

/-- Level 1 adds the two bits of each pair. -/
theorem treePairs_countsPairs (hw : 2 ∣ w) : CountsPairs x (treePairs x) := by
  intro i hi
  have hodd := bit_le_one x (2 * i + 1)
  have heven := bit_le_one x (2 * i)
  rw [treePairs, field_ofFields _ (by omega) hi, BitVec.toNat_add, bit2_toNat, bit2_toNat]
  exact Nat.mod_eq_of_lt (by omega)

/-- Level 2 adds the two pairs of each nibble in 3 bits. -/
theorem treeNibbles_sumsPairs (hw : 4 ∣ w) : SumsPairs x (treeNibbles x) := by
  intro j hj
  rw [treeNibbles, field_ofFields _ (by omega) hj]
  generalize field x 2 (2 * j) = a
  generalize field x 2 (2 * j + 1) = b
  revert a b
  decide

variable {x}

/-- A nibble of at most 7 is a 3-bit number. -/
theorem low3_toNat {k : Nat} (h : (field x 4 k).toNat ≤ 7) : (low3 x k).toNat = (field x 4 k).toNat := by
  rw [low3, BitVec.toNat_setWidth, BitVec.toNat_setWidth]
  omega

/-- Level 3 adds the two 3-bit numbers of each byte in 4 bits. -/
theorem treeBytes_sumsNibbles (hw : 8 ∣ w) (h : FieldsAtMost 4 7 x) : SumsNibbles x (treeBytes x) := by
  intro k hk
  have hlow := h (2 * k) (by omega)
  have hhigh := h (2 * k + 1) (by omega)
  rw [treeBytes, field_ofFields _ (by omega) hk, BitVec.toNat_setWidth, BitVec.toNat_add,
    low3_toNat hlow, low3_toNat hhigh]
  omega

/-- The chain adds the bytes up, where they add up to at most 255. -/
theorem chain_toNat {j : Nat} (h : byteSumBelow x (j + 1) ≤ 255) :
    (chain x j).toNat = byteSumBelow x (j + 1) := by
  induction j with
  | zero => exact (Nat.zero_add _).symm
  | succ j ih =>
    rw [chain, BitVec.toNat_add, ih (le_trans (Nat.le_add_right _ _) h)]
    exact Nat.mod_eq_of_lt (Nat.lt_succ_of_le h)

theorem byteSumBelow_mono (x : BitVec w) {m n : Nat} (h : m ≤ n) : byteSumBelow x m ≤ byteSumBelow x n :=
  monotone_nat_of_le_succ (fun _ => Nat.le_add_right _ _) h

theorem treePrefixes_prefixSums (hw : 8 ∣ w) (h : byteSumBelow x (w / 8) ≤ 255) :
    PrefixSums x (treePrefixes x) := by
  intro j hj
  rw [treePrefixes, field_ofFields _ (by omega) hj]
  exact chain_toNat ((byteSumBelow_mono x hj).trans h)

end

/-- Level by level the tree's words have the fields of the datapath's nets, and the chain ends in the
total, which is the top byte of the product. -/
theorem Reduction.tree_eq {w : Nat} {n : WordNets w} (h : Reduction n) (hw : 8 ∣ w) (hpos : 0 < w)
    (hle : w ≤ 255) :
    treePairs n.v = n.s1 ∧ treeNibbles (treePairs n.v) = n.s2 ∧
      treeBytes (treeNibbles (treePairs n.v)) = n.s3 ∧
      treePrefixes (treeBytes (treeNibbles (treePairs n.v))) = n.p ∧
      chain (treeBytes (treeNibbles (treePairs n.v))) (w / 8 - 1) = n.count := by
  have hw2 : 2 ∣ w := Dvd.dvd.trans (by decide) hw
  have hw4 : 4 ∣ w := Dvd.dvd.trans (by decide) hw
  have hs1 : treePairs n.v = n.s1 := eq_of_fields_eq hw2 fun i hi =>
    (treePairs_countsPairs n.v hw2 i hi).trans (h.s1_counts i hi).symm
  have hs2 : treeNibbles n.s1 = n.s2 := eq_of_fields_eq hw4 fun j hj =>
    (treeNibbles_sumsPairs n.s1 hw4 j hj).trans (h.s2_sums j hj).symm
  have hto7 : FieldsAtMost 4 7 n.s2 := fun j hj => (h.s2_range j hj).trans (by decide)
  have hs3 : treeBytes n.s2 = n.s3 := (treeBytes_sumsNibbles hw hto7).unique hw h.s3_sums
  have htotal : byteSumBelow n.s3 (w / 8) ≤ 255 := by
    have hsum := h.s3_range.byteSumBelow_le (n := w / 8) le_rfl
    omega
  have hp : treePrefixes n.s3 = n.p := eq_of_fields_eq hw fun j hj =>
    (treePrefixes_prefixSums hw htotal j hj).trans (h.p_sums j hj).symm
  have hcount : chain n.s3 (w / 8 - 1) = n.count := by
    have htop : w / 8 - 1 < w / 8 := by omega
    rw [h.count_top, ← hp, treePrefixes, field_ofFields _ (by omega) htop]
  rw [hs1, hs2, hs3]
  exact ⟨rfl, rfl, rfl, hp, hcount⟩

/-- Settles O46: the fields of the tree's words are those of the nets (`Reduction.tree_eq`). -/
theorem adderTreeEquivalent : Obligations.AdderTreeEquivalent :=
  ⟨fun v => (wordNets32_reduction v).tree_eq (by decide) (by decide) (by decide),
    fun v => (wordNets64_reduction v).tree_eq (by decide) (by decide) (by decide)⟩

end Sys2Proof.Machine

/-! PROOFS. The end of a run (spec/70_reset_and_hazards.md R170). -/

namespace Sys2Proof.Machine

/-- A step with nothing asked for leaves the state as it is (log 4). -/
theorem step_of_script_nil {s : State} (h : s.script = []) : step s = .next s := by
  obtain ⟨-, hstay⟩ | ⟨l, ls, hcons, -⟩ := step_cases s
  · exact hstay
  · cases h.symm.trans hcons

/-- Settles O5: the line next runs on the state that asks for the rest (`step_of_script_cons`), and a
line leaves the script alone (`runLine_binds`). -/
theorem runEndsWithTheScript : Obligations.RunEndsWithTheScript := by
  refine ⟨fun s => step_of_script_nil, fun s t l ls hscript hstep => ?_⟩
  have hline : runLine l (s.setScript ls) = .next t := (step_of_script_cons hscript).symm.trans hstep
  obtain ⟨-, -, -, hrest⟩ := runLine_binds hline
  exact hrest

end Sys2Proof.Machine
